-- ==== Sys2Proof/Word.lean ====
section
/-! DEFINITION. The word types of the block: rule R7 (a byte is 8 bits) and rule R105 (an event word is 32 bits). -/

namespace Sys2Proof

/-- A byte, rule R7. -/
abbrev Byte := BitVec 8

/-- An event word, rule R105. -/
abbrev EventWord := BitVec 32

/-- A 32-bit CRC value, rule R97. -/
abbrev Crc := BitVec 32

end Sys2Proof
end

