-- ==== Sys2Proof/Config.lean ====
section
/-! DEFINITION. The implementation parameters of rule R6 and the free values of the model.
A set of parameters is plain data that every state carries; the values the spec leaves OPEN are opaque constants. -/

namespace Sys2Proof

/-- `TERM_MODE`: how the last blob of a packet is known, rules R6 and R104. -/
inductive TermMode where
  | apriori
  | sentinel
deriving DecidableEq, Repr, Inhabited

/-- `WIRE_ENDIAN`: the byte order of the length and CRC fields, rules R6 and R61. -/
inductive Endian where
  | little
  | big
deriving DecidableEq, Repr, Inhabited

/-- `CRC_CFG`: the five fields of rule R96. -/
structure CrcCfg where
  poly   : BitVec 32
  init   : BitVec 32
  refin  : Bool
  refout : Bool
  xorout : BitVec 32
deriving DecidableEq, Repr, Inhabited

/-- CRC-32/ISO-HDLC, the default of rule R96 (decision D6). -/
def CrcCfg.isoHdlc : CrcCfg :=
  { poly := 0x04C11DB7#32, init := 0xFFFFFFFF#32, refin := true, refout := true, xorout := 0xFFFFFFFF#32 }

/-- The parameters of rule R6. Each field admits exactly the legal range, so that no illegal set can be built: a
quantity with lower bound 1 is held as its predecessor (read it through the accessors below). -/
structure Params where
  /-- `MAX_BLOB_PAYLOAD - 1`, the parameter being 1 to 65535. -/
  blobPayloadPred   : Fin 65535
  /-- `MAX_PACKET`, 0 to 65535. -/
  maxPacketLen      : Fin 65536
  termMode          : TermMode
  wireEndian        : Endian
  crcCfg            : CrcCfg
  /-- `DETECT_RETRY_MAX`; `none` is `UNLIMITED`. -/
  detectRetryMax    : Option Nat
  /-- `CRC_FAULT_LIMIT - 1`, the parameter being 1 or more. -/
  crcFaultLimitPred : Nat
  /-- `CONNECTOR_ID`, 0 to 255. -/
  connectorId       : Byte
  /-- `T_DETECT - 1` in an unstated unit; no rule reads it (rule R290). -/
  tDetectPred       : Nat
  /-- `T_NEGOTIATE - 1` in an unstated unit; no rule reads it (rule R290). -/
  tNegotiatePred    : Nat
deriving DecidableEq, Repr, Inhabited

/-- `P`, the largest payload byte count of one blob. -/
def Params.maxBlobPayload (p : Params) : Nat := p.blobPayloadPred.val + 1

/-- `M`, the largest packet byte count. -/
def Params.maxPacket (p : Params) : Nat := p.maxPacketLen.val

/-- `CRC_FAULT_LIMIT`. -/
def Params.crcFaultLimit (p : Params) : Nat := p.crcFaultLimitPred + 1

/-- `T_DETECT`. -/
def Params.tDetect (p : Params) : Nat := p.tDetectPred + 1

/-- `T_NEGOTIATE`. -/
def Params.tNegotiate (p : Params) : Nat := p.tNegotiatePred + 1

namespace Config

/-- OPEN parameter `MAX_BLOB_PAYLOAD`, less 1 (log 4). -/
opaque blobPayloadPred : Fin 65535

/-- OPEN parameter `MAX_PACKET` (log 4). -/
opaque maxPacketLen : Fin 65536

/-- OPEN parameter `DETECT_RETRY_MAX` (log 4). -/
opaque detectRetryMax : Option Nat

/-- OPEN parameter `CRC_FAULT_LIMIT`, less 1 (log 4). -/
opaque crcFaultLimitPred : Nat

/-- OPEN parameter `CONNECTOR_ID` (log 4). -/
opaque connectorId : Byte

/-- OPEN parameter `T_DETECT`, less 1 (log 4). -/
opaque tDetectPred : Nat

/-- OPEN parameter `T_NEGOTIATE`, less 1 (log 4). -/
opaque tNegotiatePred : Nat

/-- Free value: whether the block raises `DISCDONE` in the step that finds no event pending in `DISCONNECTING`, or
lets more time pass (rule R200, U6; log 2). -/
opaque discDoneNow : Nat → Bool

/-- The parameters of the machine after reset: the OPEN ones unknown, the three with a default at the spec's default
(decisions D4, D5, D6, D8; log 5). -/
def params : Params :=
  { blobPayloadPred := blobPayloadPred, maxPacketLen := maxPacketLen, termMode := .apriori, wireEndian := .little,
    crcCfg := CrcCfg.isoHdlc, detectRetryMax := detectRetryMax, crcFaultLimitPred := crcFaultLimitPred,
    connectorId := connectorId, tDetectPred := tDetectPred, tNegotiatePred := tNegotiatePred }

end Config

end Sys2Proof
end

