-- ==== Sys2Proof/Syntax.lean ====
section
/-! DEFINITION. The sixteen operations of rule R107, the reasons a word is reserved (rule R108), and the shape of a row of
spec/opcode_table.json. -/

namespace Sys2Proof

/-- The operations, one constructor per row of the opcode table. A byte count is a number (rule R106: unsigned, 16 bits
in the word; `Instr.wf` says so); every other operand has exactly the type its field admits. -/
inductive Instr where
  /-- `SEND len`, rule R121. -/
  | send (len : Nat)
  /-- `RXLEN total`, rule R140. -/
  | rxlen (total : Nat)
  /-- `DISC`, rule R198. -/
  | disc
  /-- `RXB b`, rule R141. -/
  | rxb (b : Byte)
  /-- `WRDONE`, rule R123. -/
  | wrdone
  /-- `TXNEND`, rule R170. -/
  | txnend
  /-- `CHABORT`, rule R171. -/
  | chabort
  /-- `CONTACT`, rule R182. -/
  | contact
  /-- `NOCONTACT`, rule R184. -/
  | nocontact
  /-- `PRESENT`, rule R186. -/
  | present
  /-- `ORIENT o`, rule R188. -/
  | orient (o : BitVec 2)
  /-- `TMODET`, rule R190. -/
  | tmodet
  /-- `TMONEG`, rule R192. -/
  | tmoneg
  /-- `POOLAV a`, rule R220. -/
  | poolav (a : Bool)
  /-- `DISCDONE`, rule R200. -/
  | discdone
  /-- `RESET`, rule R222. -/
  | reset
deriving DecidableEq, Repr

/-- Why an event word is reserved, rule R108. -/
inductive Reserved where
  /-- The `op` field is none of the sixteen codes (U20). -/
  | unknownOp (op : Byte)
  /-- The `z` field is not 0 (U21). -/
  | zNonzero (z : Byte)
  /-- A must-be-zero part of `imm` is not 0 (U21). -/
  | immNonzero (imm : BitVec 16)
deriving DecidableEq, Repr

/-- A row of the opcode table: the bits a word must have, and which bits those are. -/
structure Row where
  mnemonic : String
  pattern  : EventWord
  mask     : EventWord
deriving DecidableEq, Repr

end Sys2Proof
end

