-- ==== Sys2Proof/WellFormed.lean ====
section
/-! DEFINITION. Which operations have an event word: the two byte counts must fit `imm[15:0]` (rules R105, R106). Every
other operand fits its field by its type. -/

namespace Sys2Proof

/-- The operand fits its field. -/
def Instr.wf : Instr → Bool
  | .send len => decide (len < 65536)
  | .rxlen total => decide (total < 65536)
  | .disc => true
  | .rxb _ => true
  | .wrdone => true
  | .txnend => true
  | .chabort => true
  | .contact => true
  | .nocontact => true
  | .present => true
  | .orient _ => true
  | .tmodet => true
  | .tmoneg => true
  | .poolav _ => true
  | .discdone => true
  | .reset => true

end Sys2Proof
end

