-- ==== Sys2Proof/Decode.lean ====
section
/-! DEFINITION. Event words: the decoder (rules R105 to R108), the encoder, and the opcode table as rows. -/

namespace Sys2Proof

/-- `op`, bits 31:24. -/
def opField (w : EventWord) : Byte := w.extractLsb' 24 8

/-- `z`, bits 23:16. -/
def zField (w : EventWord) : Byte := w.extractLsb' 16 8

/-- `imm`, bits 15:0. -/
def immField (w : EventWord) : BitVec 16 := w.extractLsb' 0 16

/-- `i` if the part of `imm` that must be zero is zero, rule R106. -/
def mustBeZero (part : Nat) (imm : BitVec 16) (i : Instr) : Except Reserved Instr :=
  if part = 0 then .ok i else .error (.immNonzero imm)

/-- Operation codes and operands, rules R106 and R107. -/
def decodeOperand (op : Byte) (imm : BitVec 16) : Except Reserved Instr :=
  match op.toNat with
  | 0x01 => .ok (.send imm.toNat)
  | 0x02 => .ok (.rxlen imm.toNat)
  | 0x03 => mustBeZero imm.toNat imm .disc
  | 0x10 => mustBeZero (imm.extractLsb' 8 8).toNat imm (.rxb (imm.extractLsb' 0 8))
  | 0x11 => mustBeZero imm.toNat imm .wrdone
  | 0x12 => mustBeZero imm.toNat imm .txnend
  | 0x13 => mustBeZero imm.toNat imm .chabort
  | 0x20 => mustBeZero imm.toNat imm .contact
  | 0x21 => mustBeZero imm.toNat imm .nocontact
  | 0x22 => mustBeZero imm.toNat imm .present
  | 0x23 => mustBeZero (imm.extractLsb' 2 14).toNat imm (.orient (imm.extractLsb' 0 2))
  | 0x24 => mustBeZero imm.toNat imm .tmodet
  | 0x25 => mustBeZero imm.toNat imm .tmoneg
  | 0x30 => mustBeZero (imm.extractLsb' 1 15).toNat imm (.poolav (imm.getLsbD 0))
  | 0x40 => mustBeZero imm.toNat imm .discdone
  | 0xF0 => mustBeZero imm.toNat imm .reset
  | _ => .error (.unknownOp op)

/-- The decoder, total on all words; a reserved word is rejected by name (rule R108, decision D30). -/
def decode (w : EventWord) : Except Reserved Instr :=
  if zField w = 0#8 then decodeOperand (opField w) (immField w) else .error (.zNonzero (zField w))

/-- The `op` code of an operation, rule R107. -/
def opcode : Instr → Byte
  | .send _ => 0x01#8
  | .rxlen _ => 0x02#8
  | .disc => 0x03#8
  | .rxb _ => 0x10#8
  | .wrdone => 0x11#8
  | .txnend => 0x12#8
  | .chabort => 0x13#8
  | .contact => 0x20#8
  | .nocontact => 0x21#8
  | .present => 0x22#8
  | .orient _ => 0x23#8
  | .tmodet => 0x24#8
  | .tmoneg => 0x25#8
  | .poolav _ => 0x30#8
  | .discdone => 0x40#8
  | .reset => 0xF0#8

/-- The `imm` field of an operation, rule R106. -/
def operandImm : Instr → BitVec 16
  | .send len => BitVec.ofNat 16 len
  | .rxlen total => BitVec.ofNat 16 total
  | .disc => 0#16
  | .rxb b => b.setWidth 16
  | .wrdone => 0#16
  | .txnend => 0#16
  | .chabort => 0#16
  | .contact => 0#16
  | .nocontact => 0#16
  | .present => 0#16
  | .orient o => o.setWidth 16
  | .tmodet => 0#16
  | .tmoneg => 0#16
  | .poolav a => (BitVec.ofBool a).setWidth 16
  | .discdone => 0#16
  | .reset => 0#16

/-- The word with these fields: `op` in bits 31:24, `z = 0`, `imm` in bits 15:0 (rule R105). -/
def eventWord (op : Byte) (imm : BitVec 16) : EventWord := BitVec.ofNat 32 (op.toNat * 2 ^ 24 + imm.toNat)

/-- The event word of an operation. -/
def encode (i : Instr) : EventWord := eventWord (opcode i) (operandImm i)

/-- The rows of spec/opcode_table.json, in its order. -/
def opcodeTable : List Row :=
  [ ⟨"SEND", 0x01000000#32, 0xFFFF0000#32⟩, ⟨"RXLEN", 0x02000000#32, 0xFFFF0000#32⟩,
    ⟨"DISC", 0x03000000#32, 0xFFFFFFFF#32⟩, ⟨"RXB", 0x10000000#32, 0xFFFFFF00#32⟩,
    ⟨"WRDONE", 0x11000000#32, 0xFFFFFFFF#32⟩, ⟨"TXNEND", 0x12000000#32, 0xFFFFFFFF#32⟩,
    ⟨"CHABORT", 0x13000000#32, 0xFFFFFFFF#32⟩, ⟨"CONTACT", 0x20000000#32, 0xFFFFFFFF#32⟩ ] ++
  [ ⟨"NOCONTACT", 0x21000000#32, 0xFFFFFFFF#32⟩, ⟨"PRESENT", 0x22000000#32, 0xFFFFFFFF#32⟩,
    ⟨"ORIENT", 0x23000000#32, 0xFFFFFFFC#32⟩, ⟨"TMODET", 0x24000000#32, 0xFFFFFFFF#32⟩,
    ⟨"TMONEG", 0x25000000#32, 0xFFFFFFFF#32⟩, ⟨"POOLAV", 0x30000000#32, 0xFFFFFFFE#32⟩,
    ⟨"DISCDONE", 0x40000000#32, 0xFFFFFFFF#32⟩, ⟨"RESET", 0xF0000000#32, 0xFFFFFFFF#32⟩ ]

/-- The word has the row's bits. -/
def Row.matchesWord (r : Row) (w : EventWord) : Bool := (w &&& r.mask) == r.pattern

/-- The mnemonic of an operation, as the table spells it. -/
def mnemonic : Instr → String
  | .send _ => "SEND"
  | .rxlen _ => "RXLEN"
  | .disc => "DISC"
  | .rxb _ => "RXB"
  | .wrdone => "WRDONE"
  | .txnend => "TXNEND"
  | .chabort => "CHABORT"
  | .contact => "CONTACT"
  | .nocontact => "NOCONTACT"
  | .present => "PRESENT"
  | .orient _ => "ORIENT"
  | .tmodet => "TMODET"
  | .tmoneg => "TMONEG"
  | .poolav _ => "POOLAV"
  | .discdone => "DISCDONE"
  | .reset => "RESET"

/-- The event word made of the low `nbits` bits of `w`, the bits above them 0 (log 9). -/
def tableWord (nbits w : Nat) : EventWord := BitVec.ofNat 32 (w % 2 ^ nbits)

/-- What the decoder reads from a word numbered as the opcode table numbers its bits. -/
def decodeTableWord (nbits w : Nat) : Option Instr :=
  match decode (tableWord nbits w) with
  | .ok i => some i
  | .error _ => none

end Sys2Proof
end

