-- ==== Sys2Proof/Machine/State.lean ====
section
/-! DEFINITION. The state of the block (rules R20 to R38), its outputs (rule R10), the events the environment presents,
the state after reset (rule R44), and the reasons a step can stop. -/

namespace Sys2Proof.Machine

/-- `conn_state`, rule R22. -/
inductive ConnState where
  | idle
  | detecting
  | negotiating
  | connected
  | disconnecting
deriving DecidableEq, Repr

/-- `orientation`, rule R26. -/
inductive Orientation where
  | ori0
  | ori1
  | ori2
  | ori3
  | oriNone
deriving DecidableEq, Repr

/-- `tmr`, rule R28. -/
inductive Tmr where
  | off
  | det
  | neg
deriving DecidableEq, Repr

/-- `rx_state`, rule R31. -/
inductive RxState where
  | expectHeader
  | expectPayload
  | fault
deriving DecidableEq, Repr

/-- `tx_state`, rule R36. -/
inductive TxState where
  | idle
  | sending
deriving DecidableEq, Repr

/-- The four error kinds of rule R230. -/
inductive ErrorKind where
  | outOfMemory
  | crcMismatch
  | lengthOutOfRange
  | channelAborted
deriving DecidableEq, Repr

/-- The kind `k` of `TMR_ARM(k)`, rule R10. -/
inductive TimerKind where
  | det
  | neg
deriving DecidableEq, Repr

/-- The output actions of rule R10, the complete set. -/
inductive Output where
  /-- `CH_WRITE(bytes)` -/
  | chWrite (bytes : List Byte)
  /-- `CH_ABORT_TX` -/
  | chAbortTx
  /-- `CH_ABORT_RX` -/
  | chAbortRx
  /-- `CB_PACKET(connector, bytes)` -/
  | cbPacket (connector : Byte) (bytes : List Byte)
  /-- `CB_SEND_DONE` -/
  | cbSendDone
  /-- `CB_SEND_FAILED(kind)` -/
  | cbSendFailed (kind : ErrorKind)
  /-- `CB_FAULT(kind)` -/
  | cbFault (kind : ErrorKind)
  /-- `CB_STATE(orientation, connected)` -/
  | cbState (orientation : Orientation) (connected : Bool)
  /-- `TMR_ARM(k)` -/
  | tmrArm (k : TimerKind)
  /-- `TMR_CANCEL` -/
  | tmrCancel
  /-- `PROBE` -/
  | probe
  /-- `NEG_START` -/
  | negStart
deriving DecidableEq, Repr

/-- The content of a byte-addressed space, sparse: rising addresses, no listed byte equal to what an unlisted one reads
as (`Memory.wf`). -/
abbrev Memory := List Host.Cell

/-- One event as the environment presents it: its word (rule R105) and what the host has stored into `TXBUF` since the
event before it (rule R38: the operand buffer's content is part of the event). -/
structure Event where
  word       : EventWord
  hostWrites : List Host.Cell
deriving DecidableEq, Repr

/-- The state. The registers and buffers of rule R20 stand under their own names; `cfg` holds the parameters of rule R6;
`txbuf` is the host's operand buffer (rule R38); `pending`, `out` and `idleSteps` are the model's own (logs 1 to 3). -/
structure State where
  cfg         : Params
  connState   : ConnState
  contact     : Bool
  connected   : Bool
  chanEn      : Bool
  orientation : Orientation
  faultFlags  : BitVec 8
  tmr         : Tmr
  retryCnt    : Nat
  crcFaultCnt : Nat
  rxState     : RxState
  rxBlob      : List Byte
  rxRemaining : BitVec 17
  rxPkt       : List Byte
  rxBusy      : Bool
  poolAvail   : Bool
  rxTotal     : BitVec 16
  txState     : TxState
  txPkt       : List Byte
  txIdx       : BitVec 17
  txNblobs    : BitVec 17
  /-- `TXBUF`, written by the host, read by `SEND`. -/
  txbuf       : Memory
  /-- Events raised and not yet handled, the next one first. -/
  pending     : List Event
  /-- Every output emitted so far, oldest first. -/
  out         : List Output
  /-- Index of the next free value `Config.discDoneNow`. -/
  idleSteps   : Nat
deriving DecidableEq, Repr

/-- The state after reset under the parameters `p`: the column "reset" of rule R20, and nothing in the host's buffer, in
the event queue or among the outputs. -/
def State.resetWith (p : Params) : State :=
  { cfg := p, connState := .idle, contact := false, connected := false, chanEn := false, orientation := .oriNone,
    faultFlags := 0x00#8, tmr := .off, retryCnt := 0, crcFaultCnt := 0, rxState := .expectHeader, rxBlob := [],
    rxRemaining := 0#17, rxPkt := [], rxBusy := false, poolAvail := false, rxTotal := 0#16, txState := .idle,
    txPkt := [], txIdx := 0#17, txNblobs := 0#17, txbuf := [], pending := [], out := [], idleSteps := 0 }

/-- The machine right after reset, rules R44 and R270, under the machine's own parameters. -/
def State.reset : State := State.resetWith Config.params

/-- Why the machine stops. -/
inductive Fault where
  /-- Raised by `step` when the host stores to an address outside `TXBUF`, which has `MAX_PACKET` bytes (rule R60). No
  operation of the block raises it. Safe: the model stops where the spec gives no meaning. -/
  | txbufOutOfRange (addr : Nat)
deriving DecidableEq, Repr

/-- Why an event has no meaning. -/
inductive Refusal where
  /-- An operation the model does not give a meaning (no arm of `exec` answers it). Safe. -/
  | notModelled (mnemonic : String)
  /-- Raised by `step` for a reserved event word: rule R108 asks a model to refuse it. Safe. -/
  | reservedWord (why : Reserved)
deriving DecidableEq, Repr

end Sys2Proof.Machine
end

