-- ==== Sys2Proof/Machine/Flags.lean ====
section
/-! DEFINITION. The error codes of rule R230 and the eight sticky bits of `fault_flags`, rule R27. -/

namespace Sys2Proof.Machine

/-- The bits of `fault_flags`, rule R27. -/
inductive FaultFlag where
  | oom
  | crc
  | len
  | abort
  | detTmo
  | negTmo
  | contactLost
  | crcPersist
deriving DecidableEq, Repr

/-- The bit number of a flag, rule R27. -/
def flagBit : FaultFlag → Nat
  | .oom => 0
  | .crc => 1
  | .len => 2
  | .abort => 3
  | .detTmo => 4
  | .negTmo => 5
  | .contactLost => 6
  | .crcPersist => 7

/-- The flag as a mask over `fault_flags`. -/
def flagMask (f : FaultFlag) : BitVec 8 := 1#8 <<< flagBit f

/-- `fault_flags[k] <- 1`. -/
def setFlag (f : FaultFlag) (s : State) : State := { s with faultFlags := s.faultFlags ||| flagMask f }

/-- The flag is set. -/
def flagSet (f : FaultFlag) (s : State) : Bool := s.faultFlags.getLsbD (flagBit f)

/-- The code of an error kind, rule R230. -/
def errorCode : ErrorKind → Nat
  | .outOfMemory => 1
  | .crcMismatch => 2
  | .lengthOutOfRange => 3
  | .channelAborted => 4

/-- The flag of an error kind: bit `code - 1`, rules R27 and R230. -/
def errorFlag : ErrorKind → FaultFlag
  | .outOfMemory => .oom
  | .crcMismatch => .crc
  | .lengthOutOfRange => .len
  | .channelAborted => .abort

end Sys2Proof.Machine
end

