-- ==== Sys2Proof/Machine/Ops.lean ====
section
/-! DEFINITION. The named operations: `TXBUF` as memory, the primitives of rule R8 over byte sequences, the output list, and
the shared procedures of the rules, among them the fault action of each path (rule R250): `TxAbort` R126, `RxClear` R148,
`RxFault` R149, `GoIdle` R194, `LeaveConnected` R196. -/

namespace Sys2Proof.Machine

/-- What a byte of `TXBUF` that nothing has written reads as (log 6). -/
def unlistedByte : Byte := 0x00#8

/-- The byte at an address. -/
def Memory.read : Memory → Nat → Byte
  | [], _ => unlistedByte
  | c :: m, a => if a = c.1 then c.2 else Memory.read m a

/-- Store one byte, keeping the canonical form. -/
def Memory.write : Memory → Nat → Byte → Memory
  | [], a, b => if b = unlistedByte then [] else [(a, b)]
  | c :: m, a, b =>
    if a < c.1 then (if b = unlistedByte then c :: m else (a, b) :: c :: m)
    else if a = c.1 then (if b = unlistedByte then m else (a, b) :: m)
    else c :: Memory.write m a b

/-- Every listed address is at least `lo`, addresses rise strictly, and no listed byte is what an unlisted one reads
as. -/
def Memory.risesFrom : Nat → Memory → Bool
  | _, [] => true
  | lo, c :: m => decide (lo ≤ c.1) && decide (c.2 ≠ unlistedByte) && Memory.risesFrom (c.1 + 1) m

/-- The canonical form. -/
def Memory.wf (m : Memory) : Bool := Memory.risesFrom 0 m

/-- Every listed address lies in a space of `size` bytes. -/
def Memory.within (size : Nat) (m : Memory) : Bool := m.all fun c => decide (c.1 < size)

/-- `MemRead(space, addr, n)` of a memory, rule R8. -/
def Memory.readBytes (m : Memory) (addr n : Nat) : List Byte := (List.range n).map fun k => Memory.read m (addr + k)

/-- The host's stores into a space of `size` bytes, in order; the first address outside it is an error (log 7). -/
def hostStores (size : Nat) : List Host.Cell → Memory → Except Nat Memory
  | [], m => .ok m
  | c :: cs, m => if c.1 < size then hostStores size cs (Memory.write m c.1 c.2) else .error c.1

/-- `MemRead(space, addr, n)` of a byte sequence, rule R8: `space[addr..addr+n)`. -/
def seqRead (space : List Byte) (addr n : Nat) : List Byte := (space.drop addr).take n

/-- `emit X`, rule R8: append to the outputs. -/
def emit (o : Output) (s : State) : State := { s with out := s.out ++ [o] }

/-- `TxAbort(kind)`, rule R126. -/
def txAbort (kind : ErrorKind) (s : State) : State :=
  emit (.cbSendFailed kind) (setFlag (errorFlag kind)
    { s with txState := .idle, txPkt := [], txIdx := 0#17, txNblobs := 0#17 })

/-- `RxClear()`, rule R148. -/
def rxClear (s : State) : State := { s with rxBlob := [], rxRemaining := 0#17, rxPkt := [], rxBusy := false }

/-- `GoIdle()`, rule R194. -/
def goIdle (s : State) : State :=
  let s₁ := { s with connState := .idle }
  let s₂ := if s₁.tmr ≠ .off then { emit .tmrCancel s₁ with tmr := .off } else s₁
  { s₂ with retryCnt := 0 }

/-- The send side of `LeaveConnected`, rule R196: a send in flight is cancelled at the channel and aborted. -/
def leaveSend (s : State) : State :=
  if s.txState = .sending then txAbort .channelAborted (emit .chAbortTx s) else s

/-- The receive side of `LeaveConnected`, rule R196: a reassembly is cancelled at the channel and reported. -/
def leaveReceive (s : State) : State :=
  if s.rxBusy then emit (.cbFault .channelAborted) (setFlag .abort (emit .chAbortRx s)) else s

/-- `LeaveConnected()`, rule R196. The caller writes the new `conn_state`. -/
def leaveConnected (s : State) : State :=
  let s₁ := { s with chanEn := false, connected := false, orientation := .oriNone }
  let s₂ := rxClear (leaveReceive (leaveSend s₁))
  emit (.cbState .oriNone false) { s₂ with rxState := .expectHeader, crcFaultCnt := 0 }

/-- The last lines of `RxFault`, rule R149: count a `CrcMismatch`; at the limit leave `CONNECTED`. -/
def countCrcFault (s : State) : State :=
  let s₁ := { s with crcFaultCnt := s.crcFaultCnt + 1 }
  if s₁.cfg.crcFaultLimit ≤ s₁.crcFaultCnt then
    { leaveConnected (setFlag .crcPersist s₁) with connState := .disconnecting }
  else s₁

/-- `RxFault(kind)`, rule R149. -/
def rxFault (kind : ErrorKind) (s : State) : State :=
  let s₁ := emit (.cbFault kind) (setFlag (errorFlag kind) { rxClear s with rxState := .fault })
  if kind = .crcMismatch then countCrcFault s₁ else s₁

/-- The effect of a transaction boundary, rule R170, shared by `TXNEND` and `CHABORT` (rule R171). -/
def endTransaction (s : State) : State :=
  let s₁ := if s.txState = .sending then txAbort .channelAborted s else s
  let s₂ := if s₁.rxBusy then emit (.cbFault .channelAborted) (setFlag .abort s₁) else s₁
  { rxClear s₂ with rxState := .expectHeader }

/-- The number of MemoryPool Blocks the framer holds, rule R39 item l. -/
def blocksHeld (s : State) : Nat := (if s.txState = .sending then 1 else 0) + (if s.rxBusy then 1 else 0)

end Sys2Proof.Machine
end

