-- ==== Sys2Proof/Machine/Operands.lean ====
section
/-! DEFINITION. The operand forms of rule R106, and the codes of the enumerated registers (rule R20, decision D38) with the
host's status query (rule R40). -/

namespace Sys2Proof.Machine

/-- The packet operand of `SEND`: `TXBUF[0..len)`, rule R106. -/
def sendOperand (len : Nat) (s : State) : List Byte := Memory.readBytes s.txbuf 0 len

/-- The orientation that the operand of `ORIENT` names, rule R26. -/
def orientationOperand (o : BitVec 2) : Orientation :=
  match o.toNat with
  | 0 => .ori0
  | 1 => .ori1
  | 2 => .ori2
  | _ => .ori3

/-- The code of `conn_state`, rule R22. -/
def connCode : ConnState → BitVec 3
  | .idle => 0#3
  | .detecting => 1#3
  | .negotiating => 2#3
  | .connected => 3#3
  | .disconnecting => 4#3

/-- The code of `orientation`, rule R26. -/
def orientationCode : Orientation → BitVec 3
  | .ori0 => 0#3
  | .ori1 => 1#3
  | .ori2 => 2#3
  | .ori3 => 3#3
  | .oriNone => 4#3

/-- The code of `tmr`, rule R28. -/
def tmrCode : Tmr → BitVec 2
  | .off => 0#2
  | .det => 1#2
  | .neg => 2#2

/-- The code of `rx_state`, rule R31. -/
def rxCode : RxState → BitVec 2
  | .expectHeader => 0#2
  | .expectPayload => 1#2
  | .fault => 2#2

/-- The code of `tx_state`, rule R36. -/
def txCode : TxState → BitVec 1
  | .idle => 0#1
  | .sending => 1#1

/-- What a status query of the host returns, rule R40. -/
structure Status where
  connState   : BitVec 3
  contact     : Bool
  connected   : Bool
  orientation : BitVec 3
  faultFlags  : BitVec 8
deriving DecidableEq, Repr

/-- The host's status query, rule R40: a view of the state, no operation. -/
def statusOf (s : State) : Status :=
  { connState := connCode s.connState, contact := s.contact, connected := s.connected,
    orientation := orientationCode s.orientation, faultFlags := s.faultFlags }

/-- The outbound wire, rule R60: the bytes handed to the ByteChannel, in order. -/
def wireOut (s : State) : List Byte :=
  s.out.flatMap fun o =>
    match o with
    | .chWrite bytes => bytes
    | .chAbortTx => []
    | .chAbortRx => []
    | .cbPacket _ _ => []
    | .cbSendDone => []
    | .cbSendFailed _ => []
    | .cbFault _ => []
    | .cbState _ _ => []
    | .tmrArm _ => []
    | .tmrCancel => []
    | .probe => []
    | .negStart => []

end Sys2Proof.Machine
end

