-- ==== Sys2Proof/Machine/Connector.lean ====
section
/-! DEFINITION. The connector state machine: `CONTACT` R182, `NOCONTACT` R184, `PRESENT` R186, `ORIENT` R188, `TMODET` R190,
`TMONEG` R192, `DISC` R198, `DISCDONE` R200. -/

namespace Sys2Proof.Machine

/-- The pseudocode of rule R182. -/
def contactMade (s : State) : State :=
  let s₁ := { s with contact := true }
  if s₁.connState = .idle then
    emit (.tmrArm .det) (emit .probe
      { s₁ with faultFlags := 0x00#8, connState := .detecting, retryCnt := 0, tmr := .det })
  else s₁

/-- The pseudocode of rule R184. -/
def contactLost (s : State) : State :=
  let s₁ := { s with contact := false }
  match s₁.connState with
  | .idle => s₁
  | .detecting => goIdle (setFlag .contactLost s₁)
  | .negotiating => goIdle (setFlag .contactLost s₁)
  | .connected => goIdle (leaveConnected (setFlag .contactLost s₁))
  | .disconnecting => goIdle s₁

/-- The pseudocode of rule R186. -/
def partnerPresent (s : State) : State :=
  if s.connState = .detecting then
    emit (.tmrArm .neg) (emit .negStart { s with connState := .negotiating, retryCnt := 0, tmr := .neg })
  else s

/-- The pseudocode of rule R188. -/
def orientationFound (o : Orientation) (s : State) : State :=
  if s.connState = .negotiating then
    let s₁ := emit .tmrCancel { s with tmr := .off }
    let s₂ := rxClear { s₁ with orientation := o, connected := true, chanEn := true }
    emit (.cbState o true) { s₂ with rxState := .expectHeader, crcFaultCnt := 0, connState := .connected }
  else s

/-- Poll once more and re-arm the detection timeout, rule R190. -/
def probeAgain (s : State) : State := emit (.tmrArm .det) (emit .probe { s with tmr := .det })

/-- The pseudocode of rule R190. -/
def detectTimeout (s : State) : State :=
  if s.connState = .detecting ∧ s.tmr = .det then
    let s₁ := { s with tmr := .off }
    match s₁.cfg.detectRetryMax with
    | none => probeAgain s₁
    | some n =>
      if s₁.retryCnt < n then probeAgain { s₁ with retryCnt := s₁.retryCnt + 1 }
      else goIdle (setFlag .detTmo s₁)
  else s

/-- The pseudocode of rule R192. -/
def negotiateTimeout (s : State) : State :=
  if s.connState = .negotiating ∧ s.tmr = .neg then goIdle (setFlag .negTmo { s with tmr := .off }) else s

/-- The pseudocode of rule R198. -/
def disconnect (s : State) : State :=
  if s.connState = .connected then { leaveConnected s with connState := .disconnecting } else s

/-- The pseudocode of rule R200. -/
def teardownDone (s : State) : State := if s.connState = .disconnecting then goIdle s else s

/-- `CONTACT`, rule R182. -/
def execContact (s : State) : Host.Outcome State Fault Refusal := .next (contactMade s)

/-- `NOCONTACT`, rule R184. -/
def execNocontact (s : State) : Host.Outcome State Fault Refusal := .next (contactLost s)

/-- `PRESENT`, rule R186. -/
def execPresent (s : State) : Host.Outcome State Fault Refusal := .next (partnerPresent s)

/-- `ORIENT o`, rule R188. -/
def execOrient (o : BitVec 2) (s : State) : Host.Outcome State Fault Refusal :=
  .next (orientationFound (orientationOperand o) s)

/-- `TMODET`, rule R190. -/
def execTmodet (s : State) : Host.Outcome State Fault Refusal := .next (detectTimeout s)

/-- `TMONEG`, rule R192. -/
def execTmoneg (s : State) : Host.Outcome State Fault Refusal := .next (negotiateTimeout s)

/-- `DISC`, rule R198. -/
def execDisc (s : State) : Host.Outcome State Fault Refusal := .next (disconnect s)

/-- `DISCDONE`, rule R200. -/
def execDiscdone (s : State) : Host.Outcome State Fault Refusal := .next (teardownDone s)

end Sys2Proof.Machine
end

