-- ==== Sys2Proof/Machine/Frame.lean ====
section
/-! DEFINITION. The blob frame: length and CRC fields (rules R90 to R95), the CRC (R96, R97), a blob (R99), and the cut of a
packet into blobs (R100). -/

namespace Sys2Proof.Machine

/-- The number whose bytes these are, least significant first. -/
def littleEndianNat : List Byte → Nat
  | [] => 0
  | b :: bs => b.toNat + 256 * littleEndianNat bs

/-- The bytes of a field in wire order, given them least significant first, and back. -/
def wireOrder (e : Endian) (bs : List Byte) : List Byte :=
  match e with
  | .little => bs
  | .big => bs.reverse

/-- `EncodeLen(n)`, rule R92. -/
def encodeLen (e : Endian) (n : Nat) : List Byte := wireOrder e [BitVec.ofNat 8 n, BitVec.ofNat 8 (n / 256)]

/-- `DecodeLen`, rule R92, byte by byte. -/
def decodeLen (e : Endian) (bs : List Byte) : Nat := littleEndianNat (wireOrder e bs)

/-- `EncodeCrc(c)`, rule R94. -/
def encodeCrc (e : Endian) (c : Crc) : List Byte :=
  wireOrder e [c.extractLsb' 0 8, c.extractLsb' 8 8, c.extractLsb' 16 8, c.extractLsb' 24 8]

/-- `DecodeCrc`, rule R94. -/
def decodeCrc (e : Endian) (bs : List Byte) : Crc := BitVec.ofNat 32 (littleEndianNat (wireOrder e bs))

/-- One turn of the inner loop of rule R97. -/
def crcBit (c : CrcCfg) (reg : Crc) : Crc := if reg.msb then (reg <<< 1) ^^^ c.poly else reg <<< 1

/-- `n` turns of the inner loop. -/
def crcBits (c : CrcCfg) : Nat → Crc → Crc
  | 0, reg => reg
  | n + 1, reg => crcBits c n (crcBit c reg)

/-- One byte through the register, rule R97. -/
def crcByte (c : CrcCfg) (reg : Crc) (b : Byte) : Crc :=
  crcBits c 8 (reg ^^^ (((if c.refin then b.reverse else b).setWidth 32) <<< 24))

/-- `CRC32(s)`, rule R97. -/
def crc32 (c : CrcCfg) (s : List Byte) : Crc :=
  let reg := s.foldl (crcByte c) c.init
  (if c.refout then reg.reverse else reg) ^^^ c.xorout

/-- One turn of the inner loop of the reflected form of rule R97. -/
def reflectedBit (reg : Crc) : Crc := if reg.getLsbD 0 then (reg >>> 1) ^^^ 0xEDB88320#32 else reg >>> 1

/-- `n` turns of it. -/
def reflectedBits : Nat → Crc → Crc
  | 0, reg => reg
  | n + 1, reg => reflectedBits n (reflectedBit reg)

/-- The reflected form of `CRC32` for the default `CRC_CFG`, rule R97. -/
def crc32Reflected (s : List Byte) : Crc :=
  s.foldl (fun reg b => reflectedBits 8 (reg ^^^ b.setWidth 32)) 0xFFFFFFFF#32 ^^^ 0xFFFFFFFF#32

/-- `EncodeBlob(p)`, rule R99. -/
def encodeBlob (p : Params) (payload : List Byte) : List Byte :=
  let h := encodeLen p.wireEndian payload.length
  h ++ payload ++ encodeCrc p.wireEndian (crc32 p.crcCfg (h ++ payload))

/-- `ceil(a / b)` for `b > 0`, rule R7. -/
def ceilDiv (a b : Nat) : Nat := (a + b - 1) / b

/-- `NBlobs(L)`, rule R100. -/
def nBlobs (p : Params) (len : Nat) : Nat :=
  match p.termMode with
  | .apriori => max 1 (ceilDiv len p.maxBlobPayload)
  | .sentinel => ceilDiv len p.maxBlobPayload + 1

/-- `Slice(pkt, i)`, rule R100: the bytes `[i * P .. min((i + 1) * P, L))`, none from the end of the packet on. -/
def slice (p : Params) (pkt : List Byte) (i : Nat) : List Byte :=
  (pkt.drop (i * p.maxBlobPayload)).take p.maxBlobPayload

end Sys2Proof.Machine
end

