-- ==== Sys2Proof/Machine/Receive.lean ====
section
/-! DEFINITION. The receive path: `RXLEN` (rule R140) and `RXB` (rules R141 to R147). -/

namespace Sys2Proof.Machine

/-- The pseudocode of rule R140. -/
def setExpectedLength (total : Nat) (s : State) : State :=
  if s.cfg.maxPacket < total then emit (.cbFault .lengthOutOfRange) (setFlag .len s)
  else { s with rxTotal := BitVec.ofNat 16 total }

/-- The three length tests of rule R144: the blob is too long for itself or for its packet. -/
def lengthRejected (s : State) (length : Nat) : Bool :=
  decide (s.cfg.maxBlobPayload < length) ||
    match s.cfg.termMode with
    | .apriori => decide (s.rxTotal.toNat < s.rxPkt.length + length)
    | .sentinel => decide (s.cfg.maxPacket < s.rxPkt.length + length)

/-- The second half of `HeaderByte`, rule R144, made when `rx_blob` holds both header bytes. -/
def headerComplete (s : State) : State :=
  let length := decodeLen s.cfg.wireEndian (seqRead s.rxBlob 0 2)
  if lengthRejected s length then rxFault .lengthOutOfRange s
  else { s with rxState := .expectPayload, rxRemaining := BitVec.ofNat 17 (length + 4) }

/-- `HeaderByte(b)` once rule R143 has passed, rule R144. -/
def headerStore (b : Byte) (s : State) : State :=
  let s₁ := { s with rxBlob := s.rxBlob ++ [b] }
  if s₁.rxBlob.length = 2 then headerComplete s₁ else s₁

/-- `HeaderByte(b)`, rules R143 and R144: the first byte of a packet allocates. -/
def headerByte (b : Byte) (s : State) : State :=
  if s.rxBusy = false then
    if s.poolAvail = false then rxFault .outOfMemory s
    else headerStore b { s with rxBusy := true }
  else headerStore b s

/-- The packet is complete once the blob of this length has been appended, rules R104 and R147. -/
def packetComplete (s : State) (length : Nat) : Bool :=
  match s.cfg.termMode with
  | .apriori => decide (s.rxPkt.length = s.rxTotal.toNat)
  | .sentinel => decide (length = 0)

/-- Deliver a complete packet, rule R147. -/
def deliver (s : State) : State :=
  { emit (.cbPacket s.cfg.connectorId s.rxPkt) s with rxPkt := [], rxBusy := false }

/-- The CRC of the received blob is the computed one, rule R147. -/
def crcValid (s : State) : Bool :=
  let length := decodeLen s.cfg.wireEndian (seqRead s.rxBlob 0 2)
  crc32 s.cfg.crcCfg (seqRead s.rxBlob 0 (2 + length)) == decodeCrc s.cfg.wireEndian (seqRead s.rxBlob (2 + length) 4)

/-- A valid blob: append its payload, perhaps deliver, rule R147. -/
def acceptBlob (s : State) : State :=
  let length := decodeLen s.cfg.wireEndian (seqRead s.rxBlob 0 2)
  let s₁ := { s with
    crcFaultCnt := 0, rxPkt := s.rxPkt ++ seqRead s.rxBlob 2 length, rxBlob := [], rxState := .expectHeader }
  if packetComplete s₁ length then deliver s₁ else s₁

/-- `BlobComplete()`, rule R147. -/
def blobComplete (s : State) : State := if crcValid s then acceptBlob s else rxFault .crcMismatch s

/-- `BodyByte(b)`, rule R145. -/
def bodyByte (b : Byte) (s : State) : State :=
  let s₁ := { s with rxBlob := s.rxBlob ++ [b], rxRemaining := s.rxRemaining - 1#17 }
  if s₁.rxRemaining = 0#17 then blobComplete s₁ else s₁

/-- The dispatch of rule R141. -/
def receiveByte (b : Byte) (s : State) : State :=
  if s.chanEn = false then s
  else
    match s.rxState with
    | .fault => s
    | .expectHeader => headerByte b s
    | .expectPayload => bodyByte b s

/-- `RXLEN total`, rule R140. -/
def execRxlen (total : Nat) (s : State) : Host.Outcome State Fault Refusal := .next (setExpectedLength total s)

/-- `RXB b`, rule R141. -/
def execRxb (b : Byte) (s : State) : Host.Outcome State Fault Refusal := .next (receiveByte b s)

end Sys2Proof.Machine
end

