-- ==== Sys2Proof/Machine/Send.lean ====
section
/-! DEFINITION. The send path: `SEND` (rule R121) and `WRDONE` (rule R123). -/

namespace Sys2Proof.Machine

/-- A rejected `SEND`, rule R121: a flag and a callback, nothing else. -/
def rejectSend (kind : ErrorKind) (s : State) : State := emit (.cbSendFailed kind) (setFlag (errorFlag kind) s)

/-- An accepted `SEND`, rule R121: the packet is captured and its first blob handed to the channel. -/
def acceptSend (pkt : List Byte) (s : State) : State :=
  emit (.chWrite (encodeBlob s.cfg (slice s.cfg pkt 0)))
    { s with txPkt := pkt, txNblobs := BitVec.ofNat 17 (nBlobs s.cfg pkt.length), txIdx := 0#17, txState := .sending }

/-- The pseudocode of rule R121; the first test that holds decides. -/
def sendPacket (len : Nat) (s : State) : State :=
  if s.cfg.maxPacket < len then rejectSend .lengthOutOfRange s
  else if s.chanEn = false then rejectSend .channelAborted s
  else if s.txState = .sending ∨ s.poolAvail = false then rejectSend .outOfMemory s
  else acceptSend (sendOperand len s) s

/-- The pseudocode of rule R123. -/
def writeDone (s : State) : State :=
  if s.txState = .sending then
    let n := s.txIdx.toNat + 1
    if n = s.txNblobs.toNat then
      emit .cbSendDone { s with txState := .idle, txPkt := [], txIdx := 0#17, txNblobs := 0#17 }
    else
      emit (.chWrite (encodeBlob s.cfg (slice s.cfg s.txPkt n))) { s with txIdx := BitVec.ofNat 17 n }
  else s

/-- `SEND len`, rule R121. -/
def execSend (len : Nat) (s : State) : Host.Outcome State Fault Refusal := .next (sendPacket len s)

/-- `WRDONE`, rule R123. -/
def execWrdone (s : State) : Host.Outcome State Fault Refusal := .next (writeDone s)

end Sys2Proof.Machine
end

