-- ==== Sys2Proof/Machine/System.lean ====
section
/-! DEFINITION. The environment and system operations: `POOLAV` (rule R220) and `RESET` (rule R222). -/

namespace Sys2Proof.Machine

/-- Every register and buffer of rule R20 at its reset value; the parameters keep their values (rule R222), and the
host's buffer, the events still pending and the outputs already emitted are not the block's (log 13). -/
def resetBlock (s : State) : State :=
  { State.resetWith s.cfg with txbuf := s.txbuf, pending := s.pending, out := s.out, idleSteps := s.idleSteps }

/-- `POOLAV a`, rule R220. -/
def execPoolav (a : Bool) (s : State) : Host.Outcome State Fault Refusal := .next { s with poolAvail := a }

/-- `RESET`, rule R222. -/
def execReset (s : State) : Host.Outcome State Fault Refusal := .next (resetBlock s)

end Sys2Proof.Machine
end

