-- ==== Sys2Proof/Machine/Transaction.lean ====
section
/-! DEFINITION. The transaction boundary: `TXNEND` (rule R170) and `CHABORT` (rule R171). -/

namespace Sys2Proof.Machine

/-- `TXNEND`, rule R170. -/
def execTxnend (s : State) : Host.Outcome State Fault Refusal := .next (endTransaction s)

/-- `CHABORT`, rule R171: exactly the update and outputs of `TXNEND`. -/
def execChabort (s : State) : Host.Outcome State Fault Refusal := .next (endTransaction s)

end Sys2Proof.Machine
end

