-- ==== Sys2Proof/Machine/Dispatch.lean ====
section
/-! DEFINITION. One arm per operation. -/

namespace Sys2Proof.Machine

def exec (i : Instr) (s : State) : Host.Outcome State Fault Refusal :=
  match i with
  | .send len => Sys2Proof.Machine.execSend len s
  | .rxlen total => Sys2Proof.Machine.execRxlen total s
  | .disc => Sys2Proof.Machine.execDisc s
  | .rxb b => Sys2Proof.Machine.execRxb b s
  | .wrdone => Sys2Proof.Machine.execWrdone s
  | .txnend => Sys2Proof.Machine.execTxnend s
  | .chabort => Sys2Proof.Machine.execChabort s
  | .contact => Sys2Proof.Machine.execContact s
  | .nocontact => Sys2Proof.Machine.execNocontact s
  | .present => Sys2Proof.Machine.execPresent s
  | .orient o => Sys2Proof.Machine.execOrient o s
  | .tmodet => Sys2Proof.Machine.execTmodet s
  | .tmoneg => Sys2Proof.Machine.execTmoneg s
  | .poolav a => Sys2Proof.Machine.execPoolav a s
  | .discdone => Sys2Proof.Machine.execDiscdone s
  | .reset => Sys2Proof.Machine.execReset s

end Sys2Proof.Machine
end

