-- ==== Sys2Proof/Machine/Fetch.lean ====
section
/-! DEFINITION. What a step does before it runs an operation: it takes the next event and lets the host's stores into
`TXBUF` land (rules R9, R38), and what it does when no event is pending (rules R200, R256). -/

namespace Sys2Proof.Machine

/-- The next event, and the state without it. -/
def takeEvent (s : State) : Option (Event × State) :=
  match s.pending with
  | [] => none
  | e :: rest => some (e, { s with pending := rest })

/-- `TXBUF` as the host has filled it when it raises the event, rule R38; the address of a store outside it. -/
def fillTxbuf (e : Event) (s : State) : Except Nat State :=
  match hostStores s.cfg.maxPacket e.hostWrites s.txbuf with
  | .ok m => .ok { s with txbuf := m }
  | .error a => .error a

/-- A step with no event pending. In `DISCONNECTING` the block may raise `DISCDONE` itself, or let time pass: a free
value decides (rule R200, U6; log 2). In every other state the block is idle (rule R256). -/
def idleStep (s : State) : State :=
  if s.connState = .disconnecting then
    let s₁ := { s with idleSteps := s.idleSteps + 1 }
    if Config.discDoneNow s.idleSteps then teardownDone s₁ else s₁
  else s

end Sys2Proof.Machine
end

