-- ==== Sys2Proof/Machine/Step.lean ====
section
/-! DEFINITION. The step (rule R9): one event, or the block's own step when no event is pending. -/

namespace Sys2Proof.Machine

/-- One step. A reserved word is refused (rule R108). -/
def step (s : State) : Host.Outcome State Fault Refusal :=
  match takeEvent s with
  | none => .next (idleStep s)
  | some (e, s₁) =>
    match fillTxbuf e s₁ with
    | .error a => .fault (.txbufOutOfRange a)
    | .ok s₂ =>
      match decode e.word with
      | .error why => .refused (.reservedWord why)
      | .ok i => exec i s₂

/-- `s` with the word as the next event (log 1, log 9). -/
def State.withFetchWord (s : State) (nbits w : Nat) : State :=
  { s with pending := { word := tableWord nbits w, hostWrites := [] } :: s.pending }

end Sys2Proof.Machine
end

