-- ==== Sys2Proof/Machine/Environment.lean ====
section
/-! DEFINITION. The environment's side of the rules, as definitions that no step reads: who issues what and in which context
(R107, R255, R280), the gates of the event sources (R240), the order of a hardware arbiter (R247), the pseudo-operations of a
trace (R110) and the handling of a trace. -/

namespace Sys2Proof.Machine

/-- Who issues an event, rule R107. -/
inductive Agent where
  | application
  | byteChannel
  | sensor
  | timer
  | memoryPool
  | block
  | platform
deriving DecidableEq, Repr

/-- The execution contexts of rule R255, as the table of rule R107 gives them. -/
inductive Context where
  | normal
  | interrupt
  | any
deriving DecidableEq, Repr

/-- The column "issued by" of rule R107; rule R280 keeps each event to that issuer. -/
def issuer : Instr → Agent
  | .send _ => .application
  | .rxlen _ => .application
  | .disc => .application
  | .rxb _ => .byteChannel
  | .wrdone => .byteChannel
  | .txnend => .byteChannel
  | .chabort => .byteChannel
  | .contact => .sensor
  | .nocontact => .sensor
  | .present => .sensor
  | .orient _ => .sensor
  | .tmodet => .timer
  | .tmoneg => .timer
  | .poolav _ => .memoryPool
  | .discdone => .block
  | .reset => .platform

/-- The column "context" of rule R107. -/
def context : Instr → Context
  | .send _ => .normal
  | .rxlen _ => .normal
  | .disc => .normal
  | .rxb _ => .interrupt
  | .wrdone => .interrupt
  | .txnend => .interrupt
  | .chabort => .interrupt
  | .contact => .interrupt
  | .nocontact => .interrupt
  | .present => .interrupt
  | .orient _ => .interrupt
  | .tmodet => .interrupt
  | .tmoneg => .interrupt
  | .poolav _ => .any
  | .discdone => .interrupt
  | .reset => .any

/-- The gate of an event, the column "gate" of rule R240: in a state where it is closed the event is ignored or
rejected. -/
def gateOpen : Instr → State → Bool
  | .send len, s =>
    s.chanEn && decide (s.txState = .idle) && s.poolAvail && decide (len ≤ s.cfg.maxPacket)
  | .rxlen total, s => decide (total ≤ s.cfg.maxPacket)
  | .disc, s => decide (s.connState = .connected)
  | .rxb _, s => s.chanEn && decide (s.rxState ≠ .fault)
  | .wrdone, s => decide (s.txState = .sending)
  | .txnend, _ => true
  | .chabort, _ => true
  | .contact, s => decide (s.connState = .idle)
  | .nocontact, s => decide (s.connState ≠ .idle)
  | .present, s => decide (s.connState = .detecting)
  | .orient _, s => decide (s.connState = .negotiating)
  | .tmodet, s => decide (s.tmr = .det)
  | .tmoneg, s => decide (s.tmr = .neg)
  | .poolav _, _ => true
  | .discdone, s => decide (s.connState = .disconnecting)
  | .reset, _ => true

/-- The place of an event in the order of rule R247, 0 the highest. A hardware arbiter's order only: no step reads it, as
the rule asks, and `pending` may hold events in any order. -/
def arbiterRank : Instr → Nat
  | .reset => 0
  | .nocontact => 1
  | .txnend => 2
  | .chabort => 2
  | .rxb _ => 3
  | .wrdone => 4
  | .tmodet => 5
  | .tmoneg => 5
  | .contact => 6
  | .present => 6
  | .orient _ => 6
  | .discdone => 7
  | .poolav _ => 8
  | .disc => 9
  | .rxlen _ => 9
  | .send _ => 9

/-- `RXBYTES [b0 ... bn]`, rule R110. -/
def rxBytes (bytes : List Byte) : List Instr := bytes.map fun b => .rxb b

/-- The blobs of a packet in order, rule R100. -/
def packetBlobs (p : Params) (pkt : List Byte) : List (List Byte) :=
  (List.range (nBlobs p pkt.length)).map fun i => encodeBlob p (slice p pkt i)

/-- A packet on the wire, rule R100. -/
def wireImage (p : Params) (pkt : List Byte) : List Byte := (packetBlobs p pkt).flatten

/-- `RXBLOB p`, rule R110. -/
def rxBlobOps (p : Params) (payload : List Byte) : List Instr := rxBytes (encodeBlob p payload)

/-- `RXPKT p`, rule R110. -/
def rxPktOps (p : Params) (pkt : List Byte) : List Instr :=
  ((List.range (nBlobs p pkt.length)).flatMap fun i => rxBlobOps p (slice p pkt i)) ++ [.txnend]

/-- `HANDSHAKE o`, rule R110. -/
def handshakeOps (o : BitVec 2) : List Instr := [.contact, .present, .orient o]

/-- `WRDONE * n`, rule R110. -/
def wrdoneOps (n : Nat) : List Instr := List.replicate n .wrdone

/-- An operation as an event, nothing stored into `TXBUF` for it. -/
def eventOf (i : Instr) : Event := { word := encode i, hostWrites := [] }

/-- `SEND` of a packet as a trace writes it (rule R109): its bytes stored into `TXBUF`, then the event. -/
def sendEvent (pkt : List Byte) : Event := { word := encode (.send pkt.length), hostWrites := (List.range pkt.length).zip pkt }

/-- Handle the operations of a trace one after another, stopping where one stops. -/
def runAll : List Instr → State → Host.Outcome State Fault Refusal
  | [], s => .next s
  | i :: is, s =>
    match exec i s with
    | .next t => runAll is t
    | .fault r => .fault r
    | .refused r => .refused r

end Sys2Proof.Machine
end

