-- ==== Sys2Proof/Safety.lean ====
section
/-! DEFINITION. What claims speak of: the invariants of rule R39, the canonical form of `TXBUF`, quiescence (R288), and the
outputs of a step. -/

namespace Sys2Proof.Machine

/-- The invariants of rule R39, item by item, with two bounds the rule's items need to be kept by a step (log 19): R20's
bound of `rx_total`, and the room the header test has left for the payload in progress. -/
structure Inv (s : State) : Prop where
  /-- item a -/
  connected_iff : s.connected = true ↔ s.connState = .connected
  /-- item a -/
  chanEn_iff : s.chanEn = true ↔ s.connState = .connected
  /-- item b -/
  orientation_iff : s.orientation ≠ .oriNone ↔ s.connState = .connected
  /-- item c -/
  sending_chanEn : s.txState = .sending → s.chanEn = true
  /-- item d -/
  channel_off : s.chanEn = false →
    s.rxState = .expectHeader ∧ s.rxBusy = false ∧ s.rxBlob = [] ∧ s.rxPkt = [] ∧ s.crcFaultCnt = 0
  /-- item e -/
  rx_fault : s.rxState = .fault → s.rxBusy = false ∧ s.rxBlob = [] ∧ s.rxPkt = [] ∧ s.rxRemaining = 0#17
  /-- item f -/
  rx_header : s.rxState = .expectHeader → s.rxBlob.length ≤ 1 ∧ s.rxRemaining = 0#17
  /-- item f, and the room for the payload (log 19) -/
  rx_payload : s.rxState = .expectPayload →
    2 ≤ s.rxBlob.length ∧ s.rxBusy = true ∧
    decodeLen s.cfg.wireEndian (s.rxBlob.take 2) ≤ s.cfg.maxBlobPayload ∧
    1 ≤ s.rxRemaining.toNat ∧ s.rxRemaining.toNat ≤ decodeLen s.cfg.wireEndian (s.rxBlob.take 2) + 4 ∧
    s.rxBlob.length + s.rxRemaining.toNat = 6 + decodeLen s.cfg.wireEndian (s.rxBlob.take 2) ∧
    s.rxPkt.length + decodeLen s.cfg.wireEndian (s.rxBlob.take 2) ≤ s.cfg.maxPacket
  /-- item g -/
  rx_held : s.rxBlob ≠ [] ∨ s.rxPkt ≠ [] → s.rxBusy = true
  /-- item g -/
  rxPkt_le : s.rxPkt.length ≤ s.cfg.maxPacket
  /-- item h -/
  tmr_det : s.tmr = .det ↔ s.connState = .detecting
  /-- item h -/
  tmr_neg : s.tmr = .neg ↔ s.connState = .negotiating
  /-- item i -/
  retry_detecting : s.retryCnt ≠ 0 → s.connState = .detecting
  /-- item i -/
  retry_le : ∀ n, s.cfg.detectRetryMax = some n → s.retryCnt ≤ n
  /-- item i -/
  crcFaultCnt_lt : s.crcFaultCnt < s.cfg.crcFaultLimit
  /-- item j -/
  tx_idle : s.txState = .idle → s.txPkt = [] ∧ s.txIdx = 0#17 ∧ s.txNblobs = 0#17
  /-- item j -/
  tx_sending : s.txState = .sending →
    s.txPkt.length ≤ s.cfg.maxPacket ∧ s.txNblobs.toNat = nBlobs s.cfg s.txPkt.length ∧
    s.txIdx.toNat < s.txNblobs.toNat
  /-- item k -/
  contact_on : s.connState ≠ .idle → s.contact = true
  /-- item l -/
  blocks_le : blocksHeld s ≤ 2
  /-- rule R20's bound of `rx_total` (log 19) -/
  rxTotal_le : s.rxTotal.toNat ≤ s.cfg.maxPacket

/-- `TXBUF` is in canonical form and lists only its own `MAX_PACKET` addresses. -/
def TxbufCanonical (s : State) : Prop :=
  Memory.wf s.txbuf = true ∧ Memory.within s.cfg.maxPacket s.txbuf = true

/-- Quiescence, rule R288. -/
def quiescent (s : State) : Bool :=
  decide (s.txState = .idle) && !s.rxBusy && decide (s.connState ≠ .disconnecting)

/-- The outputs that the step from `s` to `t` emitted, rule R10. -/
def emitted (s t : State) : List Output := t.out.drop s.out.length

/-- The output is `CB_STATE`. -/
def isCbState : Output → Bool
  | .cbState _ _ => true
  | _ => false

/-- The output ends a reassembly: `CB_PACKET` or `CB_FAULT`. -/
def isReceiveReport : Output → Bool
  | .cbPacket _ _ => true
  | .cbFault _ => true
  | _ => false

/-- The output ends a send: `CB_SEND_DONE` or `CB_SEND_FAILED`. -/
def isSendReport : Output → Bool
  | .cbSendDone => true
  | .cbSendFailed _ => true
  | _ => false

/-- The output is `CH_WRITE`. -/
def isChWrite : Output → Bool
  | .chWrite _ => true
  | _ => false

/-- The output is `CB_PACKET`. -/
def isCbPacket : Output → Bool
  | .cbPacket _ _ => true
  | _ => false

/-- The outputs of `LeaveConnected`, in the order of rule R196. -/
def leaveOutputs (s : State) : List Output :=
  (if s.txState = .sending then [.chAbortTx, .cbSendFailed .channelAborted] else []) ++
    (if s.rxBusy = true then [.chAbortRx, .cbFault .channelAborted] else []) ++ [.cbState .oriNone false]

/-- `s` with a send in flight given up, rule R126: nothing changes on an idle send path. -/
def sendCleared (s : State) : State :=
  if s.txState = .sending then { s with txState := .idle, txPkt := [], txIdx := 0#17, txNblobs := 0#17 } else s

/-- `FF_ABORT` set if a packet was in flight in either direction, rules R170 and R196. -/
def abortFlags (s : State) : BitVec 8 :=
  if s.txState = .sending ∨ s.rxBusy = true then s.faultFlags ||| 0x08#8 else s.faultFlags

/-- The state that leaving `CONNECTED` for the connector state `c` leaves, rule R196. -/
def afterLeaving (c : ConnState) (s : State) : State :=
  { sendCleared s with
    connState := c, chanEn := false, connected := false, orientation := .oriNone, faultFlags := abortFlags s,
    rxState := .expectHeader, rxBlob := [], rxRemaining := 0#17, rxPkt := [], rxBusy := false, crcFaultCnt := 0,
    out := s.out ++ leaveOutputs s }

/-- The outputs of a transaction boundary, in the order of rule R170. -/
def boundaryOutputs (s : State) : List Output :=
  (if s.txState = .sending then [.cbSendFailed .channelAborted] else []) ++
    (if s.rxBusy = true then [.cbFault .channelAborted] else [])

/-- The state a receive fault leaves, rule R149 without the lines about `CrcMismatch`: the blob and the partial packet are
lost, and the path waits for the boundary. -/
def afterReceiveFault (kind : ErrorKind) (s : State) : State :=
  { s with
    rxState := .fault, rxBlob := [], rxRemaining := 0#17, rxPkt := [], rxBusy := false,
    faultFlags := s.faultFlags ||| flagMask (errorFlag kind), out := s.out ++ [.cbFault kind] }

/-- The bits of `fault_flags` an operation may set, the column "set by" of rule R27. `CONTACT` and `RESET` set none; they
clear the register as a whole. -/
def flagsSetBy : Instr → BitVec 8
  | .send _ => 0x0D#8
  | .rxlen _ => 0x04#8
  | .disc => 0x08#8
  | .rxb _ => 0x8F#8
  | .wrdone => 0x00#8
  | .txnend => 0x08#8
  | .chabort => 0x08#8
  | .contact => 0x00#8
  | .nocontact => 0x48#8
  | .present => 0x00#8
  | .orient _ => 0x00#8
  | .tmodet => 0x10#8
  | .tmoneg => 0x20#8
  | .poolav _ => 0x00#8
  | .discdone => 0x00#8
  | .reset => 0x00#8

/-- The byte `b` completes a blob whose CRC is wrong, and it is the fault that makes the CRC fault persistent (rules R145,
R147, R149). -/
def persistentCrcFault (b : Byte) (s : State) : Prop :=
  s.chanEn = true ∧ s.rxState = .expectPayload ∧ s.rxRemaining = 1#17 ∧
  crcValid { s with rxBlob := s.rxBlob ++ [b] } = false ∧ s.cfg.crcFaultLimit ≤ s.crcFaultCnt + 1

end Sys2Proof.Machine
end

