-- ==== Sys2Proof/Certificates/Slice0/Obligations.lean ====
section
/-! DEFINITION. The statements about the block. A premise `Inv s` rules out states that break rule R39 and that no run
reaches; `StepKeepsTheInvariants` says that steps keep it. -/

open Sys2Proof Sys2Proof.Machine

/-! ### Event words -/

/-- The words of rule R107, one or two for each operation, decode to the operation they stand for (vector E7). -/
def Obligations.TabledWordsDecode : Prop :=
  decode 0x01000019#32 = .ok (.send 25) ∧ decode 0x02000019#32 = .ok (.rxlen 25) ∧
  decode 0x03000000#32 = .ok .disc ∧ decode 0x1000000A#32 = .ok (.rxb 0x0A#8) ∧
  decode 0x100000FF#32 = .ok (.rxb 0xFF#8) ∧ decode 0x11000000#32 = .ok .wrdone ∧
  decode 0x12000000#32 = .ok .txnend ∧ decode 0x13000000#32 = .ok .chabort ∧
  decode 0x20000000#32 = .ok .contact ∧ decode 0x21000000#32 = .ok .nocontact ∧
  decode 0x22000000#32 = .ok .present ∧ decode 0x23000003#32 = .ok (.orient 3#2) ∧
  decode 0x24000000#32 = .ok .tmodet ∧ decode 0x25000000#32 = .ok .tmoneg ∧
  decode 0x30000000#32 = .ok (.poolav false) ∧ decode 0x30000001#32 = .ok (.poolav true) ∧
  decode 0x40000000#32 = .ok .discdone ∧ decode 0xF0000000#32 = .ok .reset

/-- Decoding an encoded operation gives it back, with every operand at every value its field admits. -/
def Obligations.DecodeOfEncodeIsTheOperation : Prop :=
  ∀ i : Instr, i.wf = true → decode (encode i) = .ok i

/-- Every word has one meaning: a word that decodes is the encoding of what it decodes to. -/
def Obligations.DecodedWordIsItsEncoding : Prop :=
  ∀ (w : EventWord) (i : Instr), decode w = .ok i → i.wf = true ∧ encode i = w

/-- The decoder reads exactly the rows of the opcode table, each under its own mnemonic, and every other word is reserved
(rule R108). -/
def Obligations.DecoderReadsExactlyTheTable : Prop :=
  (∀ (w : EventWord) (r : Row), r ∈ opcodeTable →
    (r.matchesWord w = true ↔ ∃ i, decode w = .ok i ∧ mnemonic i = r.mnemonic)) ∧
  (∀ w : EventWord, (∀ r ∈ opcodeTable, r.matchesWord w = false) ↔ ∃ why, decode w = .error why)

/-! ### The step -/

/-- A step takes the next event, lets the host's stores into `TXBUF` land, and runs the decoded operation; it adds nothing
else. `withFetchWord` places a word so that the next step runs it. One event per step is rule R9; that events stand in
`pending` and bring the host's stores with them, and how a word is placed there, is the model's choice (logs 1 and 9). -/
def Obligations.StepRunsTheDecodedOperation : Prop :=
  (∀ (s : State) (e : Event) (rest : List Event) (m : Memory) (i : Instr),
    s.pending = e :: rest → hostStores s.cfg.maxPacket e.hostWrites s.txbuf = .ok m → decode e.word = .ok i →
    step s = exec i { s with pending := rest, txbuf := m }) ∧
  (∀ (s : State) (w : Nat) (i : Instr), decode (tableWord 32 w) = .ok i → step (s.withFetchWord 32 w) = exec i s)

/-- A reserved word is refused by name, rule R108. -/
def Obligations.ReservedWordIsRefused : Prop :=
  ∀ (s : State) (e : Event) (rest : List Event) (m : Memory) (why : Reserved),
    s.pending = e :: rest → hostStores s.cfg.maxPacket e.hostWrites s.txbuf = .ok m → decode e.word = .error why →
    step s = .refused (.reservedWord why)

/-- The host's stores before an event. If one is outside the `MAX_PACKET` bytes of `TXBUF` the machine stops, and the fault
names the address of the first of the event's own stores that is outside (the model's choice, log 7); if all are inside,
each address reads as the last byte stored there, and every other as before. -/
def Obligations.HostStoresLandInsideTxbufOnly : Prop :=
  (∀ (s : State) (e : Event) (rest : List Event), s.pending = e :: rest →
    (∃ c ∈ e.hostWrites, s.cfg.maxPacket ≤ c.1) →
    ∃ c ∈ e.hostWrites, s.cfg.maxPacket ≤ c.1 ∧
      e.hostWrites.find? (fun d => decide (s.cfg.maxPacket ≤ d.1)) = some c ∧
      step s = .fault (.txbufOutOfRange c.1)) ∧
  (∀ (size : Nat) (cs : List Host.Cell) (m : Memory), Memory.wf m = true → (∀ c ∈ cs, c.1 < size) →
    ∃ m', hostStores size cs m = .ok m' ∧ Memory.wf m' = true ∧
      ∀ a, Memory.read m' a = ((cs.reverse.find? fun c => c.1 == a).map Prod.snd).getD (Memory.read m a))

/-- With no event pending the block is idle, rule R256; in `DISCONNECTING` it either raises `DISCDONE` itself or lets time
pass (rule R200; the model's choice, log 2). -/
def Obligations.StepWithNothingPending : Prop :=
  ∀ s : State, s.pending = [] →
    (s.connState ≠ .disconnecting → step s = .next s) ∧
    (s.connState = .disconnecting →
      step s = .next { s with idleSteps := s.idleSteps + 1 } ∨
      step s = exec .discdone { s with idleSteps := s.idleSteps + 1 })

/-- Every operation is defined in every state (rule R280, decision D24), and none touches what is not the block's: the
parameters (R6), every byte of `TXBUF` (R38, R60), the events still pending (R43). Outputs are only appended. The model's
own choices in this: outputs accumulate in `out` (log 3), and `RESET` too leaves `TXBUF`, the pending events and the
outputs as they are (log 13). -/
def Obligations.EveryOperationCompletesAndKeepsTheHostSide : Prop :=
  ∀ (i : Instr) (s : State), ∃ t, exec i s = .next t ∧ t.cfg = s.cfg ∧
    (∀ a, Memory.read t.txbuf a = Memory.read s.txbuf a) ∧ t.pending = s.pending ∧
    ∃ o, t.out = s.out ++ o

/-! ### The frame and the CRC -/

/-- Rule R92: the two bytes of the length field in either byte order, and back. -/
def Obligations.LengthFieldLayout : Prop :=
  ∀ n : Nat, n ≤ 65535 →
    (let w := BitVec.ofNat 16 n
     encodeLen .little n = [w.extractLsb' 0 8, w.extractLsb' 8 8] ∧
     encodeLen .big n = [w.extractLsb' 8 8, w.extractLsb' 0 8]) ∧
    (∀ b0 b1 : Byte, decodeLen .little [b0, b1] = b0.toNat + 256 * b1.toNat ∧
      decodeLen .big [b0, b1] = 256 * b0.toNat + b1.toNat) ∧
    (∀ e, decodeLen e (encodeLen e n) = n) ∧
    encodeLen .little 10 = [0x0A#8, 0x00#8] ∧ decodeLen .little [0x2C#8, 0x01#8] = 300

/-- Rule R94: the four bytes of the CRC field in either byte order; `DecodeCrc` is the inverse. -/
def Obligations.CrcFieldLayout : Prop :=
  ∀ (c : Crc) (b0 b1 b2 b3 : Byte),
    encodeCrc .little c = [c.extractLsb' 0 8, c.extractLsb' 8 8, c.extractLsb' 16 8, c.extractLsb' 24 8] ∧
    encodeCrc .big c = [c.extractLsb' 24 8, c.extractLsb' 16 8, c.extractLsb' 8 8, c.extractLsb' 0 8] ∧
    (∀ e, decodeCrc e (encodeCrc e c) = c ∧ encodeCrc e (decodeCrc e [b0, b1, b2, b3]) = [b0, b1, b2, b3]) ∧
    (decodeCrc .little [b0, b1, b2, b3]).toNat =
      b0.toNat + 2 ^ 8 * b1.toNat + 2 ^ 16 * b2.toNat + 2 ^ 24 * b3.toNat ∧
    encodeCrc .little 0x15248E60#32 = [0x60#8, 0x8E#8, 0x24#8, 0x15#8]

/-- The check values of rule R97 for the default `CRC_CFG`. -/
def Obligations.CrcCheckValues : Prop :=
  crc32 CrcCfg.isoHdlc [] = 0x00000000#32 ∧ crc32 CrcCfg.isoHdlc [0x00#8] = 0xD202EF8D#32 ∧
  crc32 CrcCfg.isoHdlc [0x31#8, 0x32#8, 0x33#8, 0x34#8, 0x35#8, 0x36#8, 0x37#8, 0x38#8, 0x39#8] = 0xCBF43926#32

/-- Rule R97: for the default `CRC_CFG` the reflected form computes the same function, on every byte sequence. -/
def Obligations.ReflectedCrcIsTheSameFunction : Prop :=
  ∀ s : List Byte, crc32Reflected s = crc32 CrcCfg.isoHdlc s

/-- Two sequences that differ in one byte (so also in one bit) have different CRCs, for every configuration whose
generator is odd, the default among them (rule R98: a generator of more than one term). -/
def Obligations.OneByteChangeChangesTheCrc : Prop :=
  CrcCfg.isoHdlc.poly.getLsbD 0 = true ∧
  ∀ (c : CrcCfg) (before after : List Byte) (b b' : Byte), c.poly.getLsbD 0 = true → b ≠ b' →
    crc32 c (before ++ b :: after) ≠ crc32 c (before ++ b' :: after)

/-- Rules R90, R91, R93 and R95: the three fields of a blob, what the CRC covers, and the size. -/
def Obligations.BlobLayoutAndSize : Prop :=
  ∀ (p : Params) (payload : List Byte), payload.length ≤ p.maxBlobPayload →
    let blob := encodeBlob p payload
    let n := payload.length
    blob.length = n + 6 ∧ blob.length ≤ p.maxBlobPayload + 6 ∧
    decodeLen p.wireEndian (seqRead blob 0 2) = n ∧ seqRead blob 2 n = payload ∧
    decodeCrc p.wireEndian (seqRead blob (2 + n) 4) = crc32 p.crcCfg (seqRead blob 0 (2 + n))

/-- Rule R100: the number of blobs of a packet and their payloads, in both terminal conventions. -/
def Obligations.SegmentationOfAPacket : Prop :=
  ∀ (p : Params) (pkt : List Byte), pkt.length ≤ p.maxPacket →
    let len := pkt.length
    let cap := p.maxBlobPayload
    let d := ceilDiv len cap
    let n := nBlobs p len
    (len ≤ d * cap ∧ ∀ k, len ≤ k * cap → d ≤ k) ∧
    (p.termMode = .apriori → n = max 1 d ∧
      (∀ i, i + 1 < n → (slice p pkt i).length = cap) ∧
      (slice p pkt (n - 1)).length = len - (n - 1) * cap ∧
      (0 < len → 1 ≤ (slice p pkt (n - 1)).length ∧ (slice p pkt (n - 1)).length ≤ cap) ∧ (len = 0 → n = 1)) ∧
    (p.termMode = .sentinel → n = d + 1 ∧
      (∀ i, i < d → 1 ≤ (slice p pkt i).length ∧ (slice p pkt i).length ≤ cap) ∧ slice p pkt d = []) ∧
    (∀ i, slice p pkt i = (pkt.take (min ((i + 1) * cap) len)).drop (i * cap)) ∧
    ((List.range n).map fun i => slice p pkt i).flatten = pkt ∧
    packetBlobs p pkt = (List.range n).map (fun i => encodeBlob p (slice p pkt i)) ∧ n ≤ 65536

/-! ### The send path -/

/-- Rule R121. -/
def Obligations.SendResult : Prop :=
  ∀ (len : Nat) (s : State),
    (len < 65536 → decode (0x01000000#32 + BitVec.ofNat 32 len) = .ok (.send len)) ∧
    (s.cfg.maxPacket < len → exec (.send len) s = .next
      { s with faultFlags := s.faultFlags ||| 0x04#8, out := s.out ++ [.cbSendFailed .lengthOutOfRange] }) ∧
    (len ≤ s.cfg.maxPacket → s.chanEn = false → exec (.send len) s = .next
      { s with faultFlags := s.faultFlags ||| 0x08#8, out := s.out ++ [.cbSendFailed .channelAborted] }) ∧
    (len ≤ s.cfg.maxPacket → s.chanEn = true → s.txState = .sending ∨ s.poolAvail = false →
      exec (.send len) s = .next
        { s with faultFlags := s.faultFlags ||| 0x01#8, out := s.out ++ [.cbSendFailed .outOfMemory] }) ∧
    (len ≤ s.cfg.maxPacket → s.chanEn = true → s.txState = .idle → s.poolAvail = true →
      let pkt := (List.range len).map fun k => Memory.read s.txbuf k
      exec (.send len) s = .next
        { s with txPkt := pkt, txNblobs := BitVec.ofNat 17 (nBlobs s.cfg len), txIdx := 0#17, txState := .sending,
                 out := s.out ++ [.chWrite (encodeBlob s.cfg (slice s.cfg pkt 0))] })

/-- Rule R123. -/
def Obligations.WrdoneResult : Prop :=
  decode 0x11000000#32 = .ok .wrdone ∧
  ∀ s : State,
    (s.txState = .idle → exec .wrdone s = .next s) ∧
    (s.txState = .sending → s.txIdx.toNat + 1 = s.txNblobs.toNat → exec .wrdone s = .next
      { s with txState := .idle, txPkt := [], txIdx := 0#17, txNblobs := 0#17, out := s.out ++ [.cbSendDone] }) ∧
    (s.txState = .sending → s.txIdx.toNat + 1 ≠ s.txNblobs.toNat → exec .wrdone s = .next
      { s with txIdx := BitVec.ofNat 17 (s.txIdx.toNat + 1),
               out := s.out ++ [.chWrite (encodeBlob s.cfg (slice s.cfg s.txPkt (s.txIdx.toNat + 1)))] })

/-- Rule R127 item 2: a send that is not aborted hands the channel the packet's blobs in order, one per completed write,
and ends with `CB_SEND_DONE`. -/
def Obligations.UnabortedSendWritesItsWireImage : Prop :=
  ∀ (len : Nat) (s : State), len ≤ s.cfg.maxPacket → s.chanEn = true → s.txState = .idle → s.poolAvail = true →
    let pkt := sendOperand len s
    ∃ t, runAll (.send len :: wrdoneOps (nBlobs s.cfg len)) s = .next t ∧
      t = { s with txPkt := [], txIdx := 0#17, txNblobs := 0#17,
                   out := s.out ++ (packetBlobs s.cfg pkt).map .chWrite ++ [.cbSendDone] } ∧
      wireOut t = wireOut s ++ wireImage s.cfg pkt

/-- Rule R127 item 1: the step that ends a send reports it exactly once, `RESET` apart; no other step reports a send, but
for a `SEND` that is itself rejected. -/
def Obligations.SendEndsWithExactlyOneReport : Prop :=
  ∀ (i : Instr) (s t : State), s.txState = .sending → exec i s = .next t → i ≠ .reset →
    (t.txState = .idle → ((emitted s t).filter isSendReport).length = 1) ∧
    (t.txState = .sending → (∀ len, i ≠ .send len) → (emitted s t).filter isSendReport = [])

/-! ### The receive path -/

/-- Rule R140. -/
def Obligations.RxlenResult : Prop :=
  ∀ (total : Nat) (s : State),
    (total < 65536 → decode (0x02000000#32 + BitVec.ofNat 32 total) = .ok (.rxlen total)) ∧
    (s.cfg.maxPacket < total → exec (.rxlen total) s = .next
      { s with faultFlags := s.faultFlags ||| 0x04#8, out := s.out ++ [.cbFault .lengthOutOfRange] }) ∧
    (total ≤ s.cfg.maxPacket →
      exec (.rxlen total) s = .next { s with rxTotal := BitVec.ofNat 16 total } ∧
      (BitVec.ofNat 16 total).toNat = total)

/-- Rule R141: with the channel disabled, and in `RX_FAULT`, a byte is dropped. -/
def Obligations.RxbDropsBytes : Prop :=
  ∀ (b : Byte) (s : State),
    decode (0x10000000#32 + b.setWidth 32) = .ok (.rxb b) ∧
    (s.chanEn = false ∨ s.rxState = .fault → exec (.rxb b) s = .next s)

/-- Rules R143 and R144: a header byte. -/
def Obligations.HeaderByteResult : Prop :=
  ∀ (b : Byte) (s : State), s.chanEn = true → s.rxState = .expectHeader →
    let blob := s.rxBlob ++ [b]
    let length := decodeLen s.cfg.wireEndian (blob.take 2)
    let tooLong := s.cfg.maxBlobPayload < length ∨
      (s.cfg.termMode = .apriori ∧ s.rxTotal.toNat < s.rxPkt.length + length) ∨
      (s.cfg.termMode = .sentinel ∧ s.cfg.maxPacket < s.rxPkt.length + length)
    (s.rxBusy = false → s.poolAvail = false → exec (.rxb b) s = .next
      { s with rxBlob := [], rxRemaining := 0#17, rxPkt := [], rxBusy := false, rxState := .fault,
               faultFlags := s.faultFlags ||| 0x01#8, out := s.out ++ [.cbFault .outOfMemory] }) ∧
    (s.rxBusy = true ∨ s.poolAvail = true →
      (blob.length ≠ 2 → exec (.rxb b) s = .next { s with rxBusy := true, rxBlob := blob }) ∧
      (blob.length = 2 → tooLong → exec (.rxb b) s = .next
        { s with rxBlob := [], rxRemaining := 0#17, rxPkt := [], rxBusy := false, rxState := .fault,
                 faultFlags := s.faultFlags ||| 0x04#8, out := s.out ++ [.cbFault .lengthOutOfRange] }) ∧
      (blob.length = 2 → ¬tooLong → exec (.rxb b) s = .next
        { s with rxBusy := true, rxBlob := blob, rxState := .expectPayload,
                 rxRemaining := BitVec.ofNat 17 (length + 4) }))

/-- Rule R145: a payload or trailer byte is stored and counted; the last of the blob completes it in the same step (what
that does is `ValidBlobResult` and `CrcMismatchResult`). -/
def Obligations.BodyByteResult : Prop :=
  ∀ (b : Byte) (s : State), s.chanEn = true → s.rxState = .expectPayload →
    (s.rxRemaining ≠ 1#17 → exec (.rxb b) s = .next
      { s with rxBlob := s.rxBlob ++ [b], rxRemaining := s.rxRemaining - 1#17 }) ∧
    (s.rxRemaining = 1#17 → exec (.rxb b) s = .next
      (blobComplete { s with rxBlob := s.rxBlob ++ [b], rxRemaining := 0#17 }))

/-- Rule R147: the last trailer byte of a blob whose CRC is right. That `crc_fault_cnt` is cleared also when the packet is not
yet complete is what R30 and R147 say; decision D22 words it as a delivered packet, and following the rules is the model's
choice between the two (log 20). -/
def Obligations.ValidBlobResult : Prop :=
  ∀ (b : Byte) (s : State), s.chanEn = true → s.rxState = .expectPayload → s.rxRemaining = 1#17 →
    let blob := s.rxBlob ++ [b]
    let length := decodeLen s.cfg.wireEndian (blob.take 2)
    let pkt := s.rxPkt ++ (blob.drop 2).take length
    let complete := (s.cfg.termMode = .apriori ∧ pkt.length = s.rxTotal.toNat) ∨
      (s.cfg.termMode = .sentinel ∧ length = 0)
    crc32 s.cfg.crcCfg (blob.take (2 + length)) = decodeCrc s.cfg.wireEndian ((blob.drop (2 + length)).take 4) →
    (complete → exec (.rxb b) s = .next
      { s with crcFaultCnt := 0, rxBlob := [], rxRemaining := 0#17, rxState := .expectHeader, rxPkt := [],
               rxBusy := false, out := s.out ++ [.cbPacket s.cfg.connectorId pkt] }) ∧
    (¬complete → exec (.rxb b) s = .next
      { s with crcFaultCnt := 0, rxBlob := [], rxRemaining := 0#17, rxState := .expectHeader, rxPkt := pkt })

/-- Rules R147 and R149: the last trailer byte of a blob whose CRC is wrong; below the limit the path faults, at the limit
the connector leaves `CONNECTED` in the same step. -/
def Obligations.CrcMismatchResult : Prop :=
  ∀ (b : Byte) (s : State), s.chanEn = true → s.rxState = .expectPayload → s.rxRemaining = 1#17 →
    let blob := s.rxBlob ++ [b]
    let length := decodeLen s.cfg.wireEndian (blob.take 2)
    crc32 s.cfg.crcCfg (blob.take (2 + length)) ≠ decodeCrc s.cfg.wireEndian ((blob.drop (2 + length)).take 4) →
    (s.crcFaultCnt + 1 < s.cfg.crcFaultLimit → exec (.rxb b) s = .next
      { s with rxBlob := [], rxRemaining := 0#17, rxPkt := [], rxBusy := false, rxState := .fault,
               faultFlags := s.faultFlags ||| 0x02#8, crcFaultCnt := s.crcFaultCnt + 1,
               out := s.out ++ [.cbFault .crcMismatch] }) ∧
    (s.cfg.crcFaultLimit ≤ s.crcFaultCnt + 1 → s.txState = .idle → exec (.rxb b) s = .next
      { s with rxBlob := [], rxRemaining := 0#17, rxPkt := [], rxBusy := false, rxState := .expectHeader,
               faultFlags := s.faultFlags ||| 0x82#8, crcFaultCnt := 0, connState := .disconnecting,
               chanEn := false, connected := false, orientation := .oriNone,
               out := s.out ++ [.cbFault .crcMismatch, .cbState .oriNone false] }) ∧
    (s.cfg.crcFaultLimit ≤ s.crcFaultCnt + 1 → s.txState = .sending → exec (.rxb b) s = .next
      { s with rxBlob := [], rxRemaining := 0#17, rxPkt := [], rxBusy := false, rxState := .expectHeader,
               faultFlags := s.faultFlags ||| 0x8A#8, crcFaultCnt := 0, connState := .disconnecting,
               chanEn := false, connected := false, orientation := .oriNone,
               txState := .idle, txPkt := [], txIdx := 0#17, txNblobs := 0#17,
               out := s.out ++
                [.cbFault .crcMismatch, .chAbortTx, .cbSendFailed .channelAborted, .cbState .oriNone false] })

/-- Rule R98: any change of the trailer of a blob is detected; `CrcMismatch` is reported and nothing is delivered. -/
def Obligations.ChangedTrailerIsNeverDelivered : Prop :=
  ∀ (b : Byte) (s : State) (payload trailer : List Byte),
    s.chanEn = true → s.rxState = .expectPayload → s.rxRemaining = 1#17 →
    payload.length ≤ s.cfg.maxBlobPayload → trailer.length = 4 →
    (let covered := encodeLen s.cfg.wireEndian payload.length ++ payload
     s.rxBlob ++ [b] = covered ++ trailer ∧ trailer ≠ encodeCrc s.cfg.wireEndian (crc32 s.cfg.crcCfg covered)) →
    ∃ t, exec (.rxb b) s = .next t ∧ .cbFault .crcMismatch ∈ emitted s t ∧ flagSet .crc t = true ∧
      t.rxPkt = [] ∧ t.rxBusy = false ∧ ∀ o ∈ emitted s t, isCbPacket o = false

/-- The round trip of rule R101, an inference that the spec draws from R99, R100, R104 and R141 to R147: a packet cut into
blobs and fed to the receive path byte by byte is delivered whole, with the last byte and with no other output, and the
state is as before but for `crc_fault_cnt = 0`. -/
def Obligations.SegmentedPacketIsReassembled : Prop :=
  ∀ (s : State) (pkt : List Byte), Inv s → pkt.length ≤ s.cfg.maxPacket → s.chanEn = true →
    s.rxState = .expectHeader → s.rxBusy = false → s.poolAvail = true →
    (s.cfg.termMode = .apriori → s.rxTotal.toNat = pkt.length) →
    runAll (rxBytes (wireImage s.cfg pkt)) s = .next
      { s with crcFaultCnt := 0, out := s.out ++ [.cbPacket s.cfg.connectorId pkt] } ∧
    ∃ t, runAll (rxBytes (wireImage s.cfg pkt).dropLast) s = .next t ∧ t.out = s.out

/-- Rule R150 item 4: the step that ends a reassembly reports it exactly once, `RESET` apart. -/
def Obligations.ReassemblyEndsWithExactlyOneReport : Prop :=
  ∀ (i : Instr) (s t : State), Inv s → s.rxBusy = true → exec i s = .next t → t.rxBusy = false → i ≠ .reset →
    ((emitted s t).filter isReceiveReport).length = 1

/-! ### The transaction boundary -/

/-- Rules R170 and R171: the effect of `TXNEND`, and that of `CHABORT` is the same. -/
def Obligations.TransactionEndResult : Prop :=
  decode 0x12000000#32 = .ok .txnend ∧ decode 0x13000000#32 = .ok .chabort ∧
  ∀ s : State, exec .chabort s = exec .txnend s ∧
    (s.txState = .idle → s.rxBusy = false → exec .txnend s = .next
      { s with rxState := .expectHeader, rxBlob := [], rxRemaining := 0#17, rxPkt := [] }) ∧
    (s.txState = .idle → s.rxBusy = true → exec .txnend s = .next
      { s with rxState := .expectHeader, rxBlob := [], rxRemaining := 0#17, rxPkt := [], rxBusy := false,
               faultFlags := s.faultFlags ||| 0x08#8, out := s.out ++ [.cbFault .channelAborted] }) ∧
    (s.txState = .sending → s.rxBusy = false → exec .txnend s = .next
      { s with txState := .idle, txPkt := [], txIdx := 0#17, txNblobs := 0#17,
               rxState := .expectHeader, rxBlob := [], rxRemaining := 0#17, rxPkt := [],
               faultFlags := s.faultFlags ||| 0x08#8, out := s.out ++ [.cbSendFailed .channelAborted] }) ∧
    (s.txState = .sending → s.rxBusy = true → exec .txnend s = .next
      { s with txState := .idle, txPkt := [], txIdx := 0#17, txNblobs := 0#17,
               rxState := .expectHeader, rxBlob := [], rxRemaining := 0#17, rxPkt := [], rxBusy := false,
               faultFlags := s.faultFlags ||| 0x08#8,
               out := s.out ++ [.cbSendFailed .channelAborted, .cbFault .channelAborted] })

/-- Rule R172, an inference that the spec draws from R170 and R171: a second boundary changes nothing and emits nothing. -/
def Obligations.SecondBoundaryChangesNothing : Prop :=
  ∀ (i j : Instr) (s : State), i = .txnend ∨ i = .chabort → j = .txnend ∨ j = .chabort → Inv s →
    ∃ t, exec i s = .next t ∧ exec j t = .next t ∧ t.txState = .idle ∧ t.txPkt = [] ∧ t.rxState = .expectHeader ∧
      t.rxBusy = false ∧ t.rxBlob = [] ∧ t.rxPkt = [] ∧ t.rxRemaining = 0#17

/-! ### The connector -/

/-- Rule R182. -/
def Obligations.ContactResult : Prop :=
  decode 0x20000000#32 = .ok .contact ∧
  ∀ s : State,
    (s.connState = .idle → exec .contact s = .next
      { s with contact := true, faultFlags := 0x00#8, connState := .detecting, retryCnt := 0, tmr := .det,
               out := s.out ++ [.probe, .tmrArm .det] }) ∧
    (s.connState ≠ .idle → exec .contact s = .next { s with contact := true })

/-- Rule R184, with `GoIdle` (R194) and `LeaveConnected` (R196) written out. -/
def Obligations.NocontactResult : Prop :=
  decode 0x21000000#32 = .ok .nocontact ∧
  ∀ s : State,
    let cancel : List Output := if s.tmr = .off then [] else [.tmrCancel]
    (s.connState = .idle → exec .nocontact s = .next { s with contact := false }) ∧
    (s.connState = .detecting ∨ s.connState = .negotiating → exec .nocontact s = .next
      { s with contact := false, faultFlags := s.faultFlags ||| 0x40#8, connState := .idle, tmr := .off, retryCnt := 0,
               out := s.out ++ cancel }) ∧
    (s.connState = .connected → exec .nocontact s = .next
      { sendCleared s with
        contact := false, connState := .idle, tmr := .off, retryCnt := 0, chanEn := false, connected := false,
        orientation := .oriNone, rxState := .expectHeader, rxBlob := [], rxRemaining := 0#17, rxPkt := [],
        rxBusy := false, crcFaultCnt := 0,
        faultFlags := s.faultFlags ||| 0x40#8 ||| (if s.txState = .sending ∨ s.rxBusy = true then 0x08#8 else 0x00#8),
        out := s.out ++ leaveOutputs s ++ cancel }) ∧
    (s.connState = .disconnecting → exec .nocontact s = .next
      { s with contact := false, connState := .idle, tmr := .off, retryCnt := 0, out := s.out ++ cancel })

/-- Rule R186. -/
def Obligations.PresentResult : Prop :=
  decode 0x22000000#32 = .ok .present ∧
  ∀ s : State,
    (s.connState = .detecting → exec .present s = .next
      { s with connState := .negotiating, retryCnt := 0, tmr := .neg, out := s.out ++ [.negStart, .tmrArm .neg] }) ∧
    (s.connState ≠ .detecting → exec .present s = .next s)

/-- Rule R188. -/
def Obligations.OrientResult : Prop :=
  (∀ o : BitVec 2, decode (0x23000000#32 + o.setWidth 32) = .ok (.orient o) ∧
    orientationCode (orientationOperand o) = o.setWidth 3) ∧
  ∀ (o : BitVec 2) (s : State),
    (s.connState = .negotiating → exec (.orient o) s = .next
      { s with tmr := .off, orientation := orientationOperand o, connected := true, chanEn := true,
               rxBlob := [], rxRemaining := 0#17, rxPkt := [], rxBusy := false, rxState := .expectHeader,
               crcFaultCnt := 0, connState := .connected,
               out := s.out ++ [.tmrCancel, .cbState (orientationOperand o) true] }) ∧
    (s.connState ≠ .negotiating → exec (.orient o) s = .next s)

/-- Rule R190. -/
def Obligations.TmodetResult : Prop :=
  decode 0x24000000#32 = .ok .tmodet ∧
  ∀ s : State,
    (s.connState = .detecting → s.tmr = .det →
      (s.cfg.detectRetryMax = none → exec .tmodet s = .next { s with out := s.out ++ [.probe, .tmrArm .det] }) ∧
      (∀ n, s.cfg.detectRetryMax = some n → s.retryCnt < n → exec .tmodet s = .next
        { s with retryCnt := s.retryCnt + 1, out := s.out ++ [.probe, .tmrArm .det] }) ∧
      (∀ n, s.cfg.detectRetryMax = some n → n ≤ s.retryCnt → exec .tmodet s = .next
        { s with faultFlags := s.faultFlags ||| 0x10#8, connState := .idle, tmr := .off, retryCnt := 0 })) ∧
    (s.connState ≠ .detecting ∨ s.tmr ≠ .det → exec .tmodet s = .next s)

/-- Rule R192. -/
def Obligations.TmonegResult : Prop :=
  decode 0x25000000#32 = .ok .tmoneg ∧
  ∀ s : State,
    (s.connState = .negotiating → s.tmr = .neg → exec .tmoneg s = .next
      { s with faultFlags := s.faultFlags ||| 0x20#8, connState := .idle, tmr := .off, retryCnt := 0 }) ∧
    (s.connState ≠ .negotiating ∨ s.tmr ≠ .neg → exec .tmoneg s = .next s)

/-- Rule R198, with `LeaveConnected` (R196) written out. -/
def Obligations.DiscResult : Prop :=
  decode 0x03000000#32 = .ok .disc ∧
  ∀ s : State,
    (s.connState = .connected → exec .disc s = .next
      { sendCleared s with
        connState := .disconnecting, chanEn := false, connected := false, orientation := .oriNone,
        rxState := .expectHeader, rxBlob := [], rxRemaining := 0#17, rxPkt := [], rxBusy := false, crcFaultCnt := 0,
        faultFlags := s.faultFlags ||| (if s.txState = .sending ∨ s.rxBusy = true then 0x08#8 else 0x00#8),
        out := s.out ++
          (if s.txState = .sending then [.chAbortTx, .cbSendFailed .channelAborted] else []) ++
          (if s.rxBusy = true then [.chAbortRx, .cbFault .channelAborted] else []) ++ [.cbState .oriNone false] }) ∧
    (s.connState ≠ .connected → exec .disc s = .next s)

/-- Rule R200, the effect of the operation. -/
def Obligations.DiscdoneResult : Prop :=
  decode 0x40000000#32 = .ok .discdone ∧
  ∀ s : State,
    (s.connState = .disconnecting → exec .discdone s = .next
      { s with connState := .idle, tmr := .off, retryCnt := 0,
               out := s.out ++ if s.tmr = .off then [] else [.tmrCancel] }) ∧
    (s.connState ≠ .disconnecting → exec .discdone s = .next s)

/-- Rule R202, the complete table: the next connector state for every state and every operation. -/
def Obligations.ConnectorTable : Prop :=
  ∀ (i : Instr) (s t : State), Inv s → exec i s = .next t →
    match i, s.connState with
    | .contact, .idle => t.connState = .detecting
    | .nocontact, _ => t.connState = .idle
    | .present, .detecting => t.connState = .negotiating
    | .orient _, .negotiating => t.connState = .connected
    | .tmodet, .detecting =>
        (t.connState = .detecting ∧ t.tmr = .det ∧ emitted s t = [.probe, .tmrArm .det]) ∨
        (t.connState = .idle ∧ flagSet .detTmo t = true ∧ s.cfg.detectRetryMax = some s.retryCnt)
    | .tmoneg, .negotiating => t.connState = .idle ∧ flagSet .negTmo t = true
    | .disc, .connected => t.connState = .disconnecting
    | .discdone, .disconnecting => t.connState = .idle
    | .rxb b, .connected =>
        (t.connState = .connected ∧ ¬persistentCrcFault b s) ∨
        (t.connState = .disconnecting ∧ flagSet .crcPersist t = true ∧ persistentCrcFault b s)
    | .reset, _ => t.connState = .idle
    | _, c => t.connState = c

/-- Rule R204 item 1, first half: the handshake from `IDLE` leads to `CONNECTED`. -/
def Obligations.HandshakeConnects : Prop :=
  ∀ (o : BitVec 2) (s : State), s.connState = .idle →
    runAll (handshakeOps o) s = .next
      { s with contact := true, faultFlags := 0x00#8, retryCnt := 0, tmr := .off,
               orientation := orientationOperand o, connected := true, chanEn := true,
               rxBlob := [], rxRemaining := 0#17, rxPkt := [], rxBusy := false, rxState := .expectHeader,
               crcFaultCnt := 0, connState := .connected,
               out := s.out ++ [.probe, .tmrArm .det, .negStart, .tmrArm .neg, .tmrCancel,
                                .cbState (orientationOperand o) true] }

/-- Rules R190 and R204 item 1, second half: with no partner, `CONTACT` and `DETECT_RETRY_MAX + 1` timeouts lead back to
`IDLE` with as many probes, and no Block is taken or lost. -/
def Obligations.DetectionGivesUpAfterItsRetries : Prop :=
  ∀ (n : Nat) (s : State), s.connState = .idle → s.cfg.detectRetryMax = some n →
    runAll (.contact :: List.replicate (n + 1) .tmodet) s = .next
      { s with contact := true, faultFlags := 0x10#8, retryCnt := 0, tmr := .off,
               out := s.out ++ (List.replicate (n + 1) [.probe, .tmrArm .det]).flatten } ∧
    ∀ (k : Nat) (t : State), runAll (.contact :: List.replicate k .tmodet) s = .next t → blocksHeld t = blocksHeld s

/-- Rule R204 item 2: loss of contact leads to `IDLE` from every state in one step; both paths are idle and every register
and buffer of theirs is empty or 0; such a state is quiescent (rule R288). -/
def Obligations.ContactLossReachesIdle : Prop :=
  ∀ s : State, Inv s → ∃ t, exec .nocontact s = .next t ∧ t.connState = .idle ∧ t.contact = false ∧
    t.connected = false ∧ t.chanEn = false ∧ t.orientation = .oriNone ∧ t.tmr = .off ∧ t.retryCnt = 0 ∧
    t.txState = .idle ∧ t.txPkt = [] ∧ t.txIdx = 0#17 ∧ t.txNblobs = 0#17 ∧
    t.rxState = .expectHeader ∧ t.rxBusy = false ∧ t.rxBlob = [] ∧ t.rxRemaining = 0#17 ∧ t.rxPkt = [] ∧
    t.crcFaultCnt = 0 ∧ blocksHeld t = 0 ∧ quiescent t = true

/-- Rule R204 item 3: `CB_STATE` is emitted exactly on entering `CONNECTED` and on leaving it, `RESET` apart. -/
def Obligations.StateCallbackExactlyOnEnteringAndLeaving : Prop :=
  ∀ (i : Instr) (s t : State), Inv s → exec i s = .next t → i ≠ .reset →
    (emitted s t).filter isCbState =
      if s.connState ≠ .connected ∧ t.connState = .connected then [.cbState t.orientation true]
      else if s.connState = .connected ∧ t.connState ≠ .connected then [.cbState .oriNone false] else []

/-- Rule R204 item 4: while the connector is not `CONNECTED` nothing is handed to the channel or delivered. -/
def Obligations.NothingWrittenOrDeliveredUnlessConnected : Prop :=
  ∀ (i : Instr) (s t : State), Inv s → s.connState ≠ .connected → exec i s = .next t →
    ∀ o ∈ emitted s t, isChWrite o = false ∧ isCbPacket o = false

/-- Rule R204 item 5: a step that leaves `CONNECTED` leaves both paths idle and no Block held. -/
def Obligations.LeavingConnectedFreesBothPaths : Prop :=
  ∀ (i : Instr) (s t : State), s.connState = .connected → exec i s = .next t → t.connState ≠ .connected →
    t.txState = .idle ∧ t.rxBusy = false ∧ blocksHeld t = 0 ∧ t.chanEn = false ∧ t.orientation = .oriNone

/-! ### System operations, reset, status -/

/-- Rule R220. -/
def Obligations.PoolavResult : Prop :=
  (∀ a : Bool, decode (0x30000000#32 + (BitVec.ofBool a).setWidth 32) = .ok (.poolav a)) ∧
  ∀ (a : Bool) (s : State), exec (.poolav a) s = .next { s with poolAvail := a }

/-- Rules R44 and R222: every register and buffer at its reset value, no output; and the same after power-up. That the
parameters, the host's buffer, the pending events, the outputs and the idle counter stay is the model's choice (log 13,
DEDUCED: none of them is a register of the block). -/
def Obligations.ResetResult : Prop :=
  decode 0xF0000000#32 = .ok .reset ∧
  (∀ s : State, exec .reset s = .next
    { s with connState := .idle, contact := false, connected := false, chanEn := false, orientation := .oriNone,
             faultFlags := 0x00#8, tmr := .off, retryCnt := 0, crcFaultCnt := 0, rxState := .expectHeader,
             rxBlob := [], rxRemaining := 0#17, rxPkt := [], rxBusy := false, poolAvail := false, rxTotal := 0#16,
             txState := .idle, txPkt := [], txIdx := 0#17, txNblobs := 0#17 }) ∧
  exec .reset State.reset = .next State.reset

/-- Rule R271: what the collaborators may still deliver after a reset changes nothing. -/
def Obligations.LateEventsAfterResetAreHarmless : Prop :=
  ∀ (i : Instr) (s t : State), exec .reset s = .next t →
    i = .wrdone ∨ i = .tmodet ∨ i = .tmoneg ∨ i = .txnend ∨ i = .chabort ∨ (∃ b, i = .rxb b) → exec i t = .next t

/-- Rules R20, R22, R26, R28, R31, R36, R230 and R27: the codes of the registers and of the error kinds, and the bit of each
of the eight flags. Rule R40: what a status query returns, in every state. -/
def Obligations.RegisterCodes : Prop :=
  (connCode .idle = 0 ∧ connCode .detecting = 1 ∧ connCode .negotiating = 2 ∧ connCode .connected = 3 ∧
    connCode .disconnecting = 4) ∧
  (orientationCode .ori0 = 0 ∧ orientationCode .ori1 = 1 ∧ orientationCode .ori2 = 2 ∧ orientationCode .ori3 = 3 ∧
    orientationCode .oriNone = 4) ∧
  (tmrCode .off = 0 ∧ tmrCode .det = 1 ∧ tmrCode .neg = 2) ∧
  (rxCode .expectHeader = 0 ∧ rxCode .expectPayload = 1 ∧ rxCode .fault = 2) ∧ (txCode .idle = 0 ∧ txCode .sending = 1) ∧
  (errorCode .outOfMemory = 1 ∧ errorCode .crcMismatch = 2 ∧ errorCode .lengthOutOfRange = 3 ∧
    errorCode .channelAborted = 4) ∧
  (∀ k, flagBit (errorFlag k) = errorCode k - 1) ∧
  (flagBit .oom = 0 ∧ flagBit .crc = 1 ∧ flagBit .len = 2 ∧ flagBit .abort = 3 ∧ flagBit .detTmo = 4 ∧
    flagBit .negTmo = 5 ∧ flagBit .contactLost = 6 ∧ flagBit .crcPersist = 7) ∧
  (∀ (f : FaultFlag) (s : State), flagSet f s = (statusOf s).faultFlags.getLsbD (flagBit f)) ∧
  (∀ s : State, statusOf s =
    { connState := connCode s.connState, contact := s.contact, connected := s.connected,
      orientation := orientationCode s.orientation, faultFlags := s.faultFlags }) ∧
  statusOf State.reset = { connState := 0, contact := false, connected := false, orientation := 4, faultFlags := 0 }

/-! ### Invariants and rules about the whole machine -/

/-- The invariants of rule R39 and the canonical form of `TXBUF` hold after reset, whatever the parameters. -/
def Obligations.ResetMeetsTheInvariants : Prop :=
  (∀ p : Params, Inv (State.resetWith p) ∧ TxbufCanonical (State.resetWith p)) ∧ Inv State.reset ∧
    TxbufCanonical State.reset

/-- Every step keeps the invariants of rule R39, from every state that meets them. -/
def Obligations.StepKeepsTheInvariants : Prop :=
  ∀ s t : State, Inv s → step s = .next t → Inv t

/-- Every step keeps `TXBUF` in canonical form and inside its `MAX_PACKET` bytes, and no step changes a parameter (rule
R6). -/
def Obligations.StepKeepsTxbufFormAndParameters : Prop :=
  ∀ s t : State, step s = .next t → t.cfg = s.cfg ∧ (TxbufCanonical s → TxbufCanonical t)

/-- Rule R240: an event that finds its gate closed is ignored; `SEND` and `RXLEN` are rejected with one callback and one
flag; `CONTACT` and `NOCONTACT` still record the level. -/
def Obligations.ClosedGateIgnoresOrRejects : Prop :=
  ∀ (i : Instr) (s : State), Inv s → gateOpen i s = false →
    match i with
    | .send _ => ∃ k, exec i s = .next
        { s with faultFlags := s.faultFlags ||| flagMask (errorFlag k), out := s.out ++ [.cbSendFailed k] }
    | .rxlen _ => exec i s = .next
        { s with faultFlags := s.faultFlags ||| 0x04#8, out := s.out ++ [.cbFault .lengthOutOfRange] }
    | .contact => exec i s = .next { s with contact := true }
    | .nocontact => exec i s = .next { s with contact := false }
    | _ => exec i s = .next s

/-- Rule R27: a flag, once set, stays set until the flags are cleared as a whole, by `RESET` or by `CONTACT` in `IDLE`; and
an operation sets only the bits the rule's table gives it. -/
def Obligations.FaultFlagsAreStickyAndSetByTheirOwners : Prop :=
  ∀ (i : Instr) (s t : State), exec i s = .next t →
    (i = .reset ∨ (i = .contact ∧ s.connState = .idle) → t.faultFlags = 0x00#8) ∧
    (¬(i = .reset ∨ (i = .contact ∧ s.connState = .idle)) →
      s.faultFlags &&& t.faultFlags = s.faultFlags ∧
      t.faultFlags &&& ~~~(flagsSetBy i) = s.faultFlags &&& ~~~(flagsSetBy i))

/-- Frame of the framer operations that never touch the connector (rule R202): the connector's registers, and the pool's
bit. -/
def Obligations.FramerOperationsKeepTheConnector : Prop :=
  ∀ (i : Instr) (s t : State),
    (∃ n, i = .send n) ∨ (∃ n, i = .rxlen n) ∨ i = .wrdone ∨ i = .txnend ∨ i = .chabort → exec i s = .next t →
    t.connState = s.connState ∧ t.contact = s.contact ∧ t.connected = s.connected ∧ t.chanEn = s.chanEn ∧
    t.orientation = s.orientation ∧ t.tmr = s.tmr ∧ t.retryCnt = s.retryCnt ∧ t.poolAvail = s.poolAvail ∧
    t.crcFaultCnt = s.crcFaultCnt ∧ ((∀ n, i ≠ .rxlen n) → t.rxTotal = s.rxTotal)

/-- The two paths are independent (rule R121, conflict C1): `SEND` and `WRDONE` leave the receive path alone, `RXLEN`
leaves the send path and the reassembly alone, and `RXB` leaves the send path alone unless it leaves `CONNECTED`. -/
def Obligations.SendAndReceivePathsAreIndependent : Prop :=
  ∀ (i : Instr) (s t : State), exec i s = .next t →
    ((∃ n, i = .send n) ∨ i = .wrdone ∨ (∃ n, i = .rxlen n) →
      t.rxState = s.rxState ∧ t.rxBlob = s.rxBlob ∧ t.rxRemaining = s.rxRemaining ∧ t.rxPkt = s.rxPkt ∧
      t.rxBusy = s.rxBusy ∧ t.crcFaultCnt = s.crcFaultCnt) ∧
    ((∃ n, i = .rxlen n) ∨ (∃ b, i = .rxb b ∧ ¬persistentCrcFault b s) →
      t.txState = s.txState ∧ t.txPkt = s.txPkt ∧ t.txIdx = s.txIdx ∧ t.txNblobs = s.txNblobs)

/-- Frame of `RXB`: what it never writes, and what it leaves alone unless the CRC fault becomes persistent. -/
def Obligations.RxbFrame : Prop :=
  ∀ (b : Byte) (s t : State), exec (.rxb b) s = .next t →
    t.contact = s.contact ∧ t.tmr = s.tmr ∧ t.retryCnt = s.retryCnt ∧ t.poolAvail = s.poolAvail ∧
    t.rxTotal = s.rxTotal ∧ (∀ a, Memory.read t.txbuf a = Memory.read s.txbuf a) ∧
    (¬persistentCrcFault b s → t.connState = s.connState ∧ t.connected = s.connected ∧ t.chanEn = s.chanEn ∧
      t.orientation = s.orientation)

/-- Frame of the connector's operations: none touches `rx_total` or `pool_avail`; those that stay outside `CONNECTED`
leave both paths alone, and `ORIENT` leaves the send path alone. -/
def Obligations.ConnectorOperationsKeepTheFramer : Prop :=
  ∀ (i : Instr) (s t : State), exec i s = .next t → issuer i = .sensor ∨ issuer i = .timer ∨ i = .disc ∨ i = .discdone →
    t.rxTotal = s.rxTotal ∧ t.poolAvail = s.poolAvail ∧
    (i ≠ .nocontact → i ≠ .disc →
      t.txState = s.txState ∧ t.txPkt = s.txPkt ∧ t.txIdx = s.txIdx ∧ t.txNblobs = s.txNblobs) ∧
    (i ≠ .nocontact → i ≠ .disc → (∀ o, i ≠ .orient o) →
      t.rxState = s.rxState ∧ t.rxBlob = s.rxBlob ∧ t.rxRemaining = s.rxRemaining ∧ t.rxPkt = s.rxPkt ∧
      t.rxBusy = s.rxBusy ∧ t.crcFaultCnt = s.crcFaultCnt ∧ t.chanEn = s.chanEn ∧ t.connected = s.connected ∧
      t.orientation = s.orientation)

/-- No operation reads the events still pending, the outputs already emitted or the idle counter, and only `SEND` reads
`TXBUF` (rule R70: a packet in flight never sees a later store). `pending`, `out` and `idleSteps` are the model's own
fields (logs 1, 2 and 3), and that `RESET` leaves them and `TXBUF` alone is the model's choice (log 13). -/
def Obligations.OperationsReadOnlyTheBlock : Prop :=
  ∀ (i : Instr) (s t : State) (q : List Event) (o : List Output) (n : Nat) (m : Memory), exec i s = .next t →
    exec i { s with pending := q, out := o, idleSteps := n } = .next
      { t with pending := q, out := o ++ emitted s t, idleSteps := n } ∧
    ((∀ len, i ≠ .send len) → exec i { s with txbuf := m } = .next { t with txbuf := m })
end

