-- ==== Sys2Proof/Laws/Encoding.lean ====
section
/-! SUPPORT. The fields of an event word: what the encoder puts into them the decoder finds there, and a word is its
fields. -/

namespace Sys2Proof

theorem eventWord_toNat (op : Byte) (imm : BitVec 16) :
    (eventWord op imm).toNat = op.toNat * 2 ^ 24 + imm.toNat := by
  have := op.isLt
  have := imm.isLt
  unfold eventWord
  rw [BitVec.toNat_ofNat]
  omega

theorem opField_toNat (w : EventWord) : (opField w).toNat = w.toNat / 2 ^ 24 := by
  have := w.isLt
  unfold opField
  rw [BitVec.extractLsb'_toNat, Nat.shiftRight_eq_div_pow]
  omega

theorem zField_toNat (w : EventWord) : (zField w).toNat = w.toNat / 2 ^ 16 % 2 ^ 8 := by
  unfold zField
  rw [BitVec.extractLsb'_toNat, Nat.shiftRight_eq_div_pow]

theorem immField_toNat (w : EventWord) : (immField w).toNat = w.toNat % 2 ^ 16 := by
  unfold immField
  rw [BitVec.extractLsb'_toNat, Nat.shiftRight_zero]

@[simp] theorem opField_eventWord (op : Byte) (imm : BitVec 16) : opField (eventWord op imm) = op := by
  apply BitVec.eq_of_toNat_eq
  have := imm.isLt
  rw [opField_toNat, eventWord_toNat]
  omega

@[simp] theorem zField_eventWord (op : Byte) (imm : BitVec 16) : zField (eventWord op imm) = 0#8 := by
  apply BitVec.eq_of_toNat_eq
  have := imm.isLt
  rw [zField_toNat, eventWord_toNat, BitVec.toNat_zero]
  omega

@[simp] theorem immField_eventWord (op : Byte) (imm : BitVec 16) : immField (eventWord op imm) = imm := by
  apply BitVec.eq_of_toNat_eq
  have := imm.isLt
  rw [immField_toNat, eventWord_toNat]
  omega

/-- A word whose `z` field is 0 is the word of its other two fields. -/
theorem eventWord_fields {w : EventWord} (hz : zField w = 0#8) : eventWord (opField w) (immField w) = w := by
  have hz' := congrArg BitVec.toNat hz
  apply BitVec.eq_of_toNat_eq
  have := w.isLt
  rw [zField_toNat, BitVec.toNat_zero] at hz'
  rw [eventWord_toNat, opField_toNat, immField_toNat]
  omega

/-- The decoder on a word given by its fields. -/
theorem decode_eventWord (op : Byte) (imm : BitVec 16) : decode (eventWord op imm) = decodeOperand op imm := by
  simp [decode]

theorem mustBeZero_ok {part : Nat} {imm : BitVec 16} {i j : Instr} (h : mustBeZero part imm i = .ok j) :
    part = 0 ∧ i = j := by
  unfold mustBeZero at h
  split at h
  · cases h; exact ⟨‹_›, rfl⟩
  · cases h

/-- `imm` is its low byte when `imm[15:8]` is 0. -/
theorem low8_of_high8 {x : BitVec 16} (h : (x.extractLsb' 8 8).toNat = 0) : (x.extractLsb' 0 8).setWidth 16 = x := by
  apply BitVec.eq_of_toNat_eq
  simp [BitVec.extractLsb'_toNat, Nat.shiftRight_eq_div_pow] at h ⊢
  omega

/-- `imm` is its low two bits when `imm[15:2]` is 0. -/
theorem low2_of_high14 {x : BitVec 16} (h : (x.extractLsb' 2 14).toNat = 0) : (x.extractLsb' 0 2).setWidth 16 = x := by
  apply BitVec.eq_of_toNat_eq
  simp [BitVec.extractLsb'_toNat, Nat.shiftRight_eq_div_pow] at h ⊢
  omega

/-- `imm` is its bit 0 when `imm[15:1]` is 0. -/
theorem low1_of_high15 {x : BitVec 16} (h : (x.extractLsb' 1 15).toNat = 0) :
    (BitVec.ofBool (x.getLsbD 0)).setWidth 16 = x := by
  apply BitVec.eq_of_toNat_eq
  have := x.isLt
  simp [BitVec.extractLsb'_toNat, Nat.shiftRight_eq_div_pow, BitVec.toNat_ofBool, BitVec.getLsbD, Nat.testBit_zero] at h ⊢
  rcases Nat.mod_two_eq_zero_or_one x.toNat with h1 | h1 <;> simp [h1] <;> omega

/-- Masking off the low `k` bits. -/
theorem and_highMask (w : EventWord) (k : Nat) : w &&& (BitVec.allOnes 32 <<< k) = (w >>> k) <<< k := by
  apply BitVec.eq_of_getLsbD_eq
  intro i hi
  rw [BitVec.getLsbD_and, BitVec.getLsbD_shiftLeft, BitVec.getLsbD_shiftLeft, BitVec.getLsbD_allOnes,
    BitVec.getLsbD_ushiftRight]
  by_cases h : i < k
  · simp [h]
  · have h1 : k + (i - k) = i := by omega
    have h2 : i - k < 32 := by omega
    simp [h, h1, h2, hi]

/-- A row whose mask spares the low `k` bits, in numbers. -/
theorem matchesWord_iff {r : Row} {k : Nat} (hm : r.mask = BitVec.allOnes 32 <<< k) (w : EventWord) :
    r.matchesWord w = true ↔ w.toNat / 2 ^ k * 2 ^ k = r.pattern.toNat := by
  have hlt : w.toNat / 2 ^ k * 2 ^ k < 2 ^ 32 := lt_of_le_of_lt (Nat.div_mul_le_self _ _) w.isLt
  rw [Row.matchesWord, beq_iff_eq, hm, and_highMask, ← BitVec.toNat_inj, BitVec.toNat_shiftLeft,
    BitVec.toNat_ushiftRight, Nat.shiftRight_eq_div_pow, Nat.shiftLeft_eq, Nat.mod_eq_of_lt hlt]

end Sys2Proof
end

