-- ==== Sys2Proof/Laws/Frame.lean ====
section
/-! SUPPORT. The blob frame: the length and CRC fields and their inverses, the parts of a blob, and the bounds of the cut of
a packet into blobs. -/

namespace Sys2Proof.Machine

theorem cap_pos (p : Params) : 0 < p.maxBlobPayload := Nat.succ_pos _

theorem cap_le (p : Params) : p.maxBlobPayload ≤ 65535 := p.blobPayloadPred.isLt

theorem maxPacket_le (p : Params) : p.maxPacket ≤ 65535 := Nat.le_of_lt_succ p.maxPacketLen.isLt

@[simp] theorem encodeLen_length (e : Endian) (n : Nat) : (encodeLen e n).length = 2 := by cases e <;> rfl

@[simp] theorem encodeCrc_length (e : Endian) (c : Crc) : (encodeCrc e c).length = 4 := by cases e <;> rfl

/-- The length field read back, rule R92. -/
theorem decodeLen_encodeLen (e : Endian) {n : Nat} (h : n ≤ 65535) : decodeLen e (encodeLen e n) = n := by
  cases e <;> simp [decodeLen, encodeLen, wireOrder, littleEndianNat] <;> omega

/-- A length field never exceeds two bytes. -/
theorem decodeLen_lt (e : Endian) (b₀ b₁ : Byte) : decodeLen e [b₀, b₁] < 65536 := by
  have := b₀.isLt
  have := b₁.isLt
  cases e <;> simp [decodeLen, wireOrder, littleEndianNat] <;> omega

/-- The CRC field read back, rule R94. -/
theorem decodeCrc_encodeCrc (e : Endian) (c : Crc) : decodeCrc e (encodeCrc e c) = c := by
  have hl : decodeCrc .little (encodeCrc .little c) = c := by
    apply BitVec.eq_of_toNat_eq
    have := c.isLt
    simp only [decodeCrc, encodeCrc, wireOrder, littleEndianNat, BitVec.extractLsb'_toNat, Nat.shiftRight_eq_div_pow,
      BitVec.toNat_ofNat]
    omega
  cases e with
  | little => exact hl
  | big => simpa [decodeCrc, encodeCrc, wireOrder] using hl

@[simp] theorem encodeBlob_length (p : Params) (payload : List Byte) :
    (encodeBlob p payload).length = payload.length + 6 := by
  simp [encodeBlob]
  omega

/-- The header of a blob. -/
theorem encodeBlob_take_two (p : Params) (payload : List Byte) :
    (encodeBlob p payload).take 2 = encodeLen p.wireEndian payload.length := by
  simp [encodeBlob, List.append_assoc]

/-- What the CRC of a blob covers. -/
theorem encodeBlob_take_covered (p : Params) (payload : List Byte) :
    (encodeBlob p payload).take (2 + payload.length) = encodeLen p.wireEndian payload.length ++ payload := by
  unfold encodeBlob
  rw [List.take_append_of_le_length (by simp), List.take_of_length_le (by simp)]

/-- The payload and the trailer of a blob. -/
theorem encodeBlob_drop_two (p : Params) (payload : List Byte) :
    (encodeBlob p payload).drop 2 =
      payload ++ encodeCrc p.wireEndian (crc32 p.crcCfg (encodeLen p.wireEndian payload.length ++ payload)) := by
  simp [encodeBlob, List.append_assoc]

/-- The trailer of a blob. -/
theorem encodeBlob_drop_covered (p : Params) (payload : List Byte) :
    (encodeBlob p payload).drop (2 + payload.length) =
      encodeCrc p.wireEndian (crc32 p.crcCfg (encodeLen p.wireEndian payload.length ++ payload)) := by
  rw [← List.drop_drop, encodeBlob_drop_two, List.drop_left]

/-- `ceilDiv a b` is the least multiple count of `b` that reaches `a`. -/
theorem ceilDiv_spec (a : Nat) {b : Nat} (h : 0 < b) : a ≤ ceilDiv a b * b ∧ ∀ k, a ≤ k * b → ceilDiv a b ≤ k := by
  unfold ceilDiv
  constructor
  · have := Nat.div_add_mod (a + b - 1) b
    have := Nat.mod_lt (a + b - 1) h
    rw [Nat.mul_comm]
    omega
  · intro k hk
    rw [Nat.div_le_iff_le_mul_add_pred h, Nat.mul_comm]
    omega

/-- A packet is cut into at least one blob and never more than `tx_nblobs` can count. -/
theorem nBlobs_bounds (p : Params) {n : Nat} (h : n ≤ p.maxPacket) : 1 ≤ nBlobs p n ∧ nBlobs p n ≤ 65536 := by
  have := maxPacket_le p
  have := (ceilDiv_spec n (cap_pos p)).2 n (Nat.le_mul_of_pos_right n (cap_pos p))
  unfold nBlobs
  split <;> omega

@[simp] theorem slice_length (p : Params) (pkt : List Byte) (i : Nat) :
    (slice p pkt i).length = min p.maxBlobPayload (pkt.length - i * p.maxBlobPayload) := by
  simp [slice]

/-- The first `n` slices joined are the start of the packet. -/
theorem slices_flatten (p : Params) (pkt : List Byte) (n : Nat) :
    ((List.range n).map fun i => slice p pkt i).flatten = pkt.take (n * p.maxBlobPayload) := by
  induction n with
  | zero => simp
  | succ n ih =>
    rw [List.range_succ, List.map_append, List.flatten_append, ih]
    simp only [List.map_cons, List.map_nil, List.flatten_cons, List.flatten_nil, List.append_nil, slice]
    rw [Nat.succ_mul, List.take_add]

end Sys2Proof.Machine
end

