-- ==== Sys2Proof/Laws/Memory.lean ====
section
/-! SUPPORT. The laws of `TXBUF`: a read after a write, and that every memory operation keeps the canonical form. -/

namespace Sys2Proof.Machine

theorem risesFrom_mono {m : Memory} {lo lo' : Nat} (h : lo ≤ lo') (hm : Memory.risesFrom lo' m = true) :
    Memory.risesFrom lo m = true := by
  cases m with
  | nil => rfl
  | cons c m => simp [Memory.risesFrom] at hm ⊢; exact ⟨⟨by omega, hm.1.2⟩, hm.2⟩

theorem risesFrom_write {m : Memory} {lo a : Nat} {b : Byte} (ha : lo ≤ a) (hm : Memory.risesFrom lo m = true) :
    Memory.risesFrom lo (Memory.write m a b) = true := by
  induction m generalizing lo with
  | nil => unfold Memory.write; split <;> simp_all [Memory.risesFrom]
  | cons c m ih =>
    simp only [Memory.risesFrom, Bool.and_eq_true, decide_eq_true_eq] at hm
    unfold Memory.write
    split
    · split
      · simp [Memory.risesFrom, hm]
      · simp_all [Memory.risesFrom]
    · split
      · split
        · exact risesFrom_mono (by omega) hm.2
        · simp_all [Memory.risesFrom]
      · simp only [Memory.risesFrom, Bool.and_eq_true, decide_eq_true_eq]
        exact ⟨hm.1, ih (by omega) hm.2⟩

/-- A store keeps the canonical form. -/
theorem write_wf {m : Memory} (a : Nat) (b : Byte) (hm : Memory.wf m = true) : Memory.wf (Memory.write m a b) = true :=
  risesFrom_write (Nat.zero_le a) hm

/-- A store lists nothing but what was listed and the byte stored. -/
theorem mem_write {m : Memory} {a : Nat} {b : Byte} {c : Host.Cell} (h : c ∈ Memory.write m a b) :
    c ∈ m ∨ c = (a, b) := by
  induction m with
  | nil => unfold Memory.write at h; split at h <;> simp_all
  | cons d m ih =>
    unfold Memory.write at h
    split at h
    · split at h <;> (simp_all; try tauto)
    · split at h
      · split at h
        · exact .inl (List.mem_cons_of_mem _ h)
        · simp at h ⊢; tauto
      · rcases List.mem_cons.mp h with h | h
        · simp [h]
        · rcases ih h with h | h <;> simp [h]

/-- A store inside the space keeps every listed address inside it. -/
theorem write_within {m : Memory} {size a : Nat} {b : Byte} (ha : a < size) (hm : Memory.within size m = true) :
    Memory.within size (Memory.write m a b) = true := by
  unfold Memory.within at hm ⊢
  rw [List.all_eq_true] at hm ⊢
  intro c hc
  rcases mem_write hc with h | h
  · exact hm c h
  · simpa [h] using ha

/-- Below the first listed address nothing is listed. -/
theorem read_of_lt {m : Memory} {lo a : Nat} (hm : Memory.risesFrom lo m = true) (ha : a < lo) :
    Memory.read m a = unlistedByte := by
  induction m generalizing lo with
  | nil => rfl
  | cons c m ih =>
    simp only [Memory.risesFrom, Bool.and_eq_true, decide_eq_true_eq] at hm
    have hne : a ≠ c.1 := by omega
    simp only [Memory.read, hne, if_false]
    exact ih hm.2 (by omega)

/-- A read after a store: the byte stored there, and what was there before everywhere else. -/
theorem read_write {m : Memory} (hm : Memory.wf m = true) (a a' : Nat) (b : Byte) :
    Memory.read (Memory.write m a b) a' = if a' = a then b else Memory.read m a' := by
  suffices h : ∀ lo, Memory.risesFrom lo m = true →
      Memory.read (Memory.write m a b) a' = if a' = a then b else Memory.read m a' from h 0 hm
  clear hm
  induction m with
  | nil => intro lo _; unfold Memory.write; split <;> split <;> simp_all [Memory.read]
  | cons c m ih =>
    intro lo hm
    simp only [Memory.risesFrom, Bool.and_eq_true, decide_eq_true_eq] at hm
    have ih' := ih _ hm.2
    unfold Memory.write
    by_cases hlt : a < c.1
    · by_cases hb : b = unlistedByte
      · by_cases haa : a' = a
        · have hne : a' ≠ c.1 := by omega
          have hr := read_of_lt (a := a) hm.2 (by omega)
          subst haa
          simp [hlt, hb, Memory.read, hne, hr]
        · simp [hlt, hb, haa]
      · simp [hlt, hb, Memory.read]
    · by_cases hac : a = c.1
      · by_cases hb : b = unlistedByte
        · by_cases haa : a' = a
          · have hr := read_of_lt (a := a') hm.2 (by omega)
            simp only [haa, hac] at hr
            simp [hac, hb, haa, hr]
          · have : a' ≠ c.1 := by omega
            simp [hac, hb, Memory.read, this]
        · by_cases haa : a' = c.1 <;> simp [hac, hb, Memory.read, haa]
      · by_cases haa : a' = c.1
        · have : a' ≠ a := by omega
          simp [hlt, hac, Memory.read, haa]
          intro h; omega
        · simp only [hlt, hac, if_false, Memory.read, haa]
          exact ih'

/-- The host's stores keep the canonical form and stay inside `TXBUF`. -/
theorem hostStores_keeps {size : Nat} {cs : List Host.Cell} {m m' : Memory} (h : hostStores size cs m = .ok m')
    (hw : Memory.wf m = true) (hi : Memory.within size m = true) :
    Memory.wf m' = true ∧ Memory.within size m' = true := by
  induction cs generalizing m with
  | nil => simp [hostStores] at h; subst h; exact ⟨hw, hi⟩
  | cons c cs ih =>
    unfold hostStores at h
    split at h
    · rename_i hlt
      exact ih h (write_wf c.1 c.2 hw) (write_within hlt hi)
    · cases h

/-- The memory after reset is in canonical form. -/
theorem reset_wf (p : Params) : Memory.wf (State.resetWith p).txbuf = true := rfl

@[simp] theorem readBytes_length (m : Memory) (a n : Nat) : (Memory.readBytes m a n).length = n := by
  simp [Memory.readBytes]

end Sys2Proof.Machine
end

