-- ==== Sys2Proof/Laws/State.lean ====
section
/-! SUPPORT. One lemma per field for each named update whose effect has no test in it, so that no later proof unfolds a
record update. -/

namespace Sys2Proof.Machine

@[simp] theorem emit_cfg (o : Output) (s : State) : (emit o s).cfg = s.cfg := rfl
@[simp] theorem emit_connState (o : Output) (s : State) : (emit o s).connState = s.connState := rfl
@[simp] theorem emit_contact (o : Output) (s : State) : (emit o s).contact = s.contact := rfl
@[simp] theorem emit_connected (o : Output) (s : State) : (emit o s).connected = s.connected := rfl
@[simp] theorem emit_chanEn (o : Output) (s : State) : (emit o s).chanEn = s.chanEn := rfl
@[simp] theorem emit_orientation (o : Output) (s : State) : (emit o s).orientation = s.orientation := rfl
@[simp] theorem emit_faultFlags (o : Output) (s : State) : (emit o s).faultFlags = s.faultFlags := rfl
@[simp] theorem emit_tmr (o : Output) (s : State) : (emit o s).tmr = s.tmr := rfl
@[simp] theorem emit_retryCnt (o : Output) (s : State) : (emit o s).retryCnt = s.retryCnt := rfl
@[simp] theorem emit_crcFaultCnt (o : Output) (s : State) : (emit o s).crcFaultCnt = s.crcFaultCnt := rfl
@[simp] theorem emit_rxState (o : Output) (s : State) : (emit o s).rxState = s.rxState := rfl
@[simp] theorem emit_rxBlob (o : Output) (s : State) : (emit o s).rxBlob = s.rxBlob := rfl
@[simp] theorem emit_rxRemaining (o : Output) (s : State) : (emit o s).rxRemaining = s.rxRemaining := rfl
@[simp] theorem emit_rxPkt (o : Output) (s : State) : (emit o s).rxPkt = s.rxPkt := rfl
@[simp] theorem emit_rxBusy (o : Output) (s : State) : (emit o s).rxBusy = s.rxBusy := rfl
@[simp] theorem emit_poolAvail (o : Output) (s : State) : (emit o s).poolAvail = s.poolAvail := rfl
@[simp] theorem emit_rxTotal (o : Output) (s : State) : (emit o s).rxTotal = s.rxTotal := rfl
@[simp] theorem emit_txState (o : Output) (s : State) : (emit o s).txState = s.txState := rfl
@[simp] theorem emit_txPkt (o : Output) (s : State) : (emit o s).txPkt = s.txPkt := rfl
@[simp] theorem emit_txIdx (o : Output) (s : State) : (emit o s).txIdx = s.txIdx := rfl
@[simp] theorem emit_txNblobs (o : Output) (s : State) : (emit o s).txNblobs = s.txNblobs := rfl
@[simp] theorem emit_txbuf (o : Output) (s : State) : (emit o s).txbuf = s.txbuf := rfl
@[simp] theorem emit_pending (o : Output) (s : State) : (emit o s).pending = s.pending := rfl
@[simp] theorem emit_out (o : Output) (s : State) : (emit o s).out = s.out ++ [o] := rfl
@[simp] theorem emit_idleSteps (o : Output) (s : State) : (emit o s).idleSteps = s.idleSteps := rfl

@[simp] theorem setFlag_cfg (f : FaultFlag) (s : State) : (setFlag f s).cfg = s.cfg := rfl
@[simp] theorem setFlag_connState (f : FaultFlag) (s : State) : (setFlag f s).connState = s.connState := rfl
@[simp] theorem setFlag_contact (f : FaultFlag) (s : State) : (setFlag f s).contact = s.contact := rfl
@[simp] theorem setFlag_connected (f : FaultFlag) (s : State) : (setFlag f s).connected = s.connected := rfl
@[simp] theorem setFlag_chanEn (f : FaultFlag) (s : State) : (setFlag f s).chanEn = s.chanEn := rfl
@[simp] theorem setFlag_orientation (f : FaultFlag) (s : State) : (setFlag f s).orientation = s.orientation := rfl
@[simp] theorem setFlag_faultFlags (f : FaultFlag) (s : State) : (setFlag f s).faultFlags = s.faultFlags ||| flagMask f := rfl
@[simp] theorem setFlag_tmr (f : FaultFlag) (s : State) : (setFlag f s).tmr = s.tmr := rfl
@[simp] theorem setFlag_retryCnt (f : FaultFlag) (s : State) : (setFlag f s).retryCnt = s.retryCnt := rfl
@[simp] theorem setFlag_crcFaultCnt (f : FaultFlag) (s : State) : (setFlag f s).crcFaultCnt = s.crcFaultCnt := rfl
@[simp] theorem setFlag_rxState (f : FaultFlag) (s : State) : (setFlag f s).rxState = s.rxState := rfl
@[simp] theorem setFlag_rxBlob (f : FaultFlag) (s : State) : (setFlag f s).rxBlob = s.rxBlob := rfl
@[simp] theorem setFlag_rxRemaining (f : FaultFlag) (s : State) : (setFlag f s).rxRemaining = s.rxRemaining := rfl
@[simp] theorem setFlag_rxPkt (f : FaultFlag) (s : State) : (setFlag f s).rxPkt = s.rxPkt := rfl
@[simp] theorem setFlag_rxBusy (f : FaultFlag) (s : State) : (setFlag f s).rxBusy = s.rxBusy := rfl
@[simp] theorem setFlag_poolAvail (f : FaultFlag) (s : State) : (setFlag f s).poolAvail = s.poolAvail := rfl
@[simp] theorem setFlag_rxTotal (f : FaultFlag) (s : State) : (setFlag f s).rxTotal = s.rxTotal := rfl
@[simp] theorem setFlag_txState (f : FaultFlag) (s : State) : (setFlag f s).txState = s.txState := rfl
@[simp] theorem setFlag_txPkt (f : FaultFlag) (s : State) : (setFlag f s).txPkt = s.txPkt := rfl
@[simp] theorem setFlag_txIdx (f : FaultFlag) (s : State) : (setFlag f s).txIdx = s.txIdx := rfl
@[simp] theorem setFlag_txNblobs (f : FaultFlag) (s : State) : (setFlag f s).txNblobs = s.txNblobs := rfl
@[simp] theorem setFlag_txbuf (f : FaultFlag) (s : State) : (setFlag f s).txbuf = s.txbuf := rfl
@[simp] theorem setFlag_pending (f : FaultFlag) (s : State) : (setFlag f s).pending = s.pending := rfl
@[simp] theorem setFlag_out (f : FaultFlag) (s : State) : (setFlag f s).out = s.out := rfl
@[simp] theorem setFlag_idleSteps (f : FaultFlag) (s : State) : (setFlag f s).idleSteps = s.idleSteps := rfl

@[simp] theorem rxClear_cfg (s : State) : (rxClear s).cfg = s.cfg := rfl
@[simp] theorem rxClear_connState (s : State) : (rxClear s).connState = s.connState := rfl
@[simp] theorem rxClear_contact (s : State) : (rxClear s).contact = s.contact := rfl
@[simp] theorem rxClear_connected (s : State) : (rxClear s).connected = s.connected := rfl
@[simp] theorem rxClear_chanEn (s : State) : (rxClear s).chanEn = s.chanEn := rfl
@[simp] theorem rxClear_orientation (s : State) : (rxClear s).orientation = s.orientation := rfl
@[simp] theorem rxClear_faultFlags (s : State) : (rxClear s).faultFlags = s.faultFlags := rfl
@[simp] theorem rxClear_tmr (s : State) : (rxClear s).tmr = s.tmr := rfl
@[simp] theorem rxClear_retryCnt (s : State) : (rxClear s).retryCnt = s.retryCnt := rfl
@[simp] theorem rxClear_crcFaultCnt (s : State) : (rxClear s).crcFaultCnt = s.crcFaultCnt := rfl
@[simp] theorem rxClear_rxState (s : State) : (rxClear s).rxState = s.rxState := rfl
@[simp] theorem rxClear_rxBlob (s : State) : (rxClear s).rxBlob = [] := rfl
@[simp] theorem rxClear_rxRemaining (s : State) : (rxClear s).rxRemaining = 0#17 := rfl
@[simp] theorem rxClear_rxPkt (s : State) : (rxClear s).rxPkt = [] := rfl
@[simp] theorem rxClear_rxBusy (s : State) : (rxClear s).rxBusy = false := rfl
@[simp] theorem rxClear_poolAvail (s : State) : (rxClear s).poolAvail = s.poolAvail := rfl
@[simp] theorem rxClear_rxTotal (s : State) : (rxClear s).rxTotal = s.rxTotal := rfl
@[simp] theorem rxClear_txState (s : State) : (rxClear s).txState = s.txState := rfl
@[simp] theorem rxClear_txPkt (s : State) : (rxClear s).txPkt = s.txPkt := rfl
@[simp] theorem rxClear_txIdx (s : State) : (rxClear s).txIdx = s.txIdx := rfl
@[simp] theorem rxClear_txNblobs (s : State) : (rxClear s).txNblobs = s.txNblobs := rfl
@[simp] theorem rxClear_txbuf (s : State) : (rxClear s).txbuf = s.txbuf := rfl
@[simp] theorem rxClear_pending (s : State) : (rxClear s).pending = s.pending := rfl
@[simp] theorem rxClear_out (s : State) : (rxClear s).out = s.out := rfl
@[simp] theorem rxClear_idleSteps (s : State) : (rxClear s).idleSteps = s.idleSteps := rfl

@[simp] theorem txAbort_cfg (k : ErrorKind) (s : State) : (txAbort k s).cfg = s.cfg := rfl
@[simp] theorem txAbort_connState (k : ErrorKind) (s : State) : (txAbort k s).connState = s.connState := rfl
@[simp] theorem txAbort_contact (k : ErrorKind) (s : State) : (txAbort k s).contact = s.contact := rfl
@[simp] theorem txAbort_connected (k : ErrorKind) (s : State) : (txAbort k s).connected = s.connected := rfl
@[simp] theorem txAbort_chanEn (k : ErrorKind) (s : State) : (txAbort k s).chanEn = s.chanEn := rfl
@[simp] theorem txAbort_orientation (k : ErrorKind) (s : State) : (txAbort k s).orientation = s.orientation := rfl
@[simp] theorem txAbort_faultFlags (k : ErrorKind) (s : State) : (txAbort k s).faultFlags = s.faultFlags ||| flagMask (errorFlag k) := rfl
@[simp] theorem txAbort_tmr (k : ErrorKind) (s : State) : (txAbort k s).tmr = s.tmr := rfl
@[simp] theorem txAbort_retryCnt (k : ErrorKind) (s : State) : (txAbort k s).retryCnt = s.retryCnt := rfl
@[simp] theorem txAbort_crcFaultCnt (k : ErrorKind) (s : State) : (txAbort k s).crcFaultCnt = s.crcFaultCnt := rfl
@[simp] theorem txAbort_rxState (k : ErrorKind) (s : State) : (txAbort k s).rxState = s.rxState := rfl
@[simp] theorem txAbort_rxBlob (k : ErrorKind) (s : State) : (txAbort k s).rxBlob = s.rxBlob := rfl
@[simp] theorem txAbort_rxRemaining (k : ErrorKind) (s : State) : (txAbort k s).rxRemaining = s.rxRemaining := rfl
@[simp] theorem txAbort_rxPkt (k : ErrorKind) (s : State) : (txAbort k s).rxPkt = s.rxPkt := rfl
@[simp] theorem txAbort_rxBusy (k : ErrorKind) (s : State) : (txAbort k s).rxBusy = s.rxBusy := rfl
@[simp] theorem txAbort_poolAvail (k : ErrorKind) (s : State) : (txAbort k s).poolAvail = s.poolAvail := rfl
@[simp] theorem txAbort_rxTotal (k : ErrorKind) (s : State) : (txAbort k s).rxTotal = s.rxTotal := rfl
@[simp] theorem txAbort_txState (k : ErrorKind) (s : State) : (txAbort k s).txState = .idle := rfl
@[simp] theorem txAbort_txPkt (k : ErrorKind) (s : State) : (txAbort k s).txPkt = [] := rfl
@[simp] theorem txAbort_txIdx (k : ErrorKind) (s : State) : (txAbort k s).txIdx = 0#17 := rfl
@[simp] theorem txAbort_txNblobs (k : ErrorKind) (s : State) : (txAbort k s).txNblobs = 0#17 := rfl
@[simp] theorem txAbort_txbuf (k : ErrorKind) (s : State) : (txAbort k s).txbuf = s.txbuf := rfl
@[simp] theorem txAbort_pending (k : ErrorKind) (s : State) : (txAbort k s).pending = s.pending := rfl
@[simp] theorem txAbort_out (k : ErrorKind) (s : State) : (txAbort k s).out = s.out ++ [.cbSendFailed k] := rfl
@[simp] theorem txAbort_idleSteps (k : ErrorKind) (s : State) : (txAbort k s).idleSteps = s.idleSteps := rfl

@[simp] theorem rejectSend_cfg (k : ErrorKind) (s : State) : (rejectSend k s).cfg = s.cfg := rfl
@[simp] theorem rejectSend_connState (k : ErrorKind) (s : State) : (rejectSend k s).connState = s.connState := rfl
@[simp] theorem rejectSend_contact (k : ErrorKind) (s : State) : (rejectSend k s).contact = s.contact := rfl
@[simp] theorem rejectSend_connected (k : ErrorKind) (s : State) : (rejectSend k s).connected = s.connected := rfl
@[simp] theorem rejectSend_chanEn (k : ErrorKind) (s : State) : (rejectSend k s).chanEn = s.chanEn := rfl
@[simp] theorem rejectSend_orientation (k : ErrorKind) (s : State) : (rejectSend k s).orientation = s.orientation := rfl
@[simp] theorem rejectSend_faultFlags (k : ErrorKind) (s : State) : (rejectSend k s).faultFlags = s.faultFlags ||| flagMask (errorFlag k) := rfl
@[simp] theorem rejectSend_tmr (k : ErrorKind) (s : State) : (rejectSend k s).tmr = s.tmr := rfl
@[simp] theorem rejectSend_retryCnt (k : ErrorKind) (s : State) : (rejectSend k s).retryCnt = s.retryCnt := rfl
@[simp] theorem rejectSend_crcFaultCnt (k : ErrorKind) (s : State) : (rejectSend k s).crcFaultCnt = s.crcFaultCnt := rfl
@[simp] theorem rejectSend_rxState (k : ErrorKind) (s : State) : (rejectSend k s).rxState = s.rxState := rfl
@[simp] theorem rejectSend_rxBlob (k : ErrorKind) (s : State) : (rejectSend k s).rxBlob = s.rxBlob := rfl
@[simp] theorem rejectSend_rxRemaining (k : ErrorKind) (s : State) : (rejectSend k s).rxRemaining = s.rxRemaining := rfl
@[simp] theorem rejectSend_rxPkt (k : ErrorKind) (s : State) : (rejectSend k s).rxPkt = s.rxPkt := rfl
@[simp] theorem rejectSend_rxBusy (k : ErrorKind) (s : State) : (rejectSend k s).rxBusy = s.rxBusy := rfl
@[simp] theorem rejectSend_poolAvail (k : ErrorKind) (s : State) : (rejectSend k s).poolAvail = s.poolAvail := rfl
@[simp] theorem rejectSend_rxTotal (k : ErrorKind) (s : State) : (rejectSend k s).rxTotal = s.rxTotal := rfl
@[simp] theorem rejectSend_txState (k : ErrorKind) (s : State) : (rejectSend k s).txState = s.txState := rfl
@[simp] theorem rejectSend_txPkt (k : ErrorKind) (s : State) : (rejectSend k s).txPkt = s.txPkt := rfl
@[simp] theorem rejectSend_txIdx (k : ErrorKind) (s : State) : (rejectSend k s).txIdx = s.txIdx := rfl
@[simp] theorem rejectSend_txNblobs (k : ErrorKind) (s : State) : (rejectSend k s).txNblobs = s.txNblobs := rfl
@[simp] theorem rejectSend_txbuf (k : ErrorKind) (s : State) : (rejectSend k s).txbuf = s.txbuf := rfl
@[simp] theorem rejectSend_pending (k : ErrorKind) (s : State) : (rejectSend k s).pending = s.pending := rfl
@[simp] theorem rejectSend_out (k : ErrorKind) (s : State) : (rejectSend k s).out = s.out ++ [.cbSendFailed k] := rfl
@[simp] theorem rejectSend_idleSteps (k : ErrorKind) (s : State) : (rejectSend k s).idleSteps = s.idleSteps := rfl

@[simp] theorem probeAgain_cfg (s : State) : (probeAgain s).cfg = s.cfg := rfl
@[simp] theorem probeAgain_connState (s : State) : (probeAgain s).connState = s.connState := rfl
@[simp] theorem probeAgain_contact (s : State) : (probeAgain s).contact = s.contact := rfl
@[simp] theorem probeAgain_connected (s : State) : (probeAgain s).connected = s.connected := rfl
@[simp] theorem probeAgain_chanEn (s : State) : (probeAgain s).chanEn = s.chanEn := rfl
@[simp] theorem probeAgain_orientation (s : State) : (probeAgain s).orientation = s.orientation := rfl
@[simp] theorem probeAgain_faultFlags (s : State) : (probeAgain s).faultFlags = s.faultFlags := rfl
@[simp] theorem probeAgain_tmr (s : State) : (probeAgain s).tmr = .det := rfl
@[simp] theorem probeAgain_retryCnt (s : State) : (probeAgain s).retryCnt = s.retryCnt := rfl
@[simp] theorem probeAgain_crcFaultCnt (s : State) : (probeAgain s).crcFaultCnt = s.crcFaultCnt := rfl
@[simp] theorem probeAgain_rxState (s : State) : (probeAgain s).rxState = s.rxState := rfl
@[simp] theorem probeAgain_rxBlob (s : State) : (probeAgain s).rxBlob = s.rxBlob := rfl
@[simp] theorem probeAgain_rxRemaining (s : State) : (probeAgain s).rxRemaining = s.rxRemaining := rfl
@[simp] theorem probeAgain_rxPkt (s : State) : (probeAgain s).rxPkt = s.rxPkt := rfl
@[simp] theorem probeAgain_rxBusy (s : State) : (probeAgain s).rxBusy = s.rxBusy := rfl
@[simp] theorem probeAgain_poolAvail (s : State) : (probeAgain s).poolAvail = s.poolAvail := rfl
@[simp] theorem probeAgain_rxTotal (s : State) : (probeAgain s).rxTotal = s.rxTotal := rfl
@[simp] theorem probeAgain_txState (s : State) : (probeAgain s).txState = s.txState := rfl
@[simp] theorem probeAgain_txPkt (s : State) : (probeAgain s).txPkt = s.txPkt := rfl
@[simp] theorem probeAgain_txIdx (s : State) : (probeAgain s).txIdx = s.txIdx := rfl
@[simp] theorem probeAgain_txNblobs (s : State) : (probeAgain s).txNblobs = s.txNblobs := rfl
@[simp] theorem probeAgain_txbuf (s : State) : (probeAgain s).txbuf = s.txbuf := rfl
@[simp] theorem probeAgain_pending (s : State) : (probeAgain s).pending = s.pending := rfl
@[simp] theorem probeAgain_out (s : State) : (probeAgain s).out = s.out ++ [.probe, .tmrArm .det] := by simp [probeAgain, emit]
@[simp] theorem probeAgain_idleSteps (s : State) : (probeAgain s).idleSteps = s.idleSteps := rfl

@[simp] theorem deliver_cfg (s : State) : (deliver s).cfg = s.cfg := rfl
@[simp] theorem deliver_connState (s : State) : (deliver s).connState = s.connState := rfl
@[simp] theorem deliver_contact (s : State) : (deliver s).contact = s.contact := rfl
@[simp] theorem deliver_connected (s : State) : (deliver s).connected = s.connected := rfl
@[simp] theorem deliver_chanEn (s : State) : (deliver s).chanEn = s.chanEn := rfl
@[simp] theorem deliver_orientation (s : State) : (deliver s).orientation = s.orientation := rfl
@[simp] theorem deliver_faultFlags (s : State) : (deliver s).faultFlags = s.faultFlags := rfl
@[simp] theorem deliver_tmr (s : State) : (deliver s).tmr = s.tmr := rfl
@[simp] theorem deliver_retryCnt (s : State) : (deliver s).retryCnt = s.retryCnt := rfl
@[simp] theorem deliver_crcFaultCnt (s : State) : (deliver s).crcFaultCnt = s.crcFaultCnt := rfl
@[simp] theorem deliver_rxState (s : State) : (deliver s).rxState = s.rxState := rfl
@[simp] theorem deliver_rxBlob (s : State) : (deliver s).rxBlob = s.rxBlob := rfl
@[simp] theorem deliver_rxRemaining (s : State) : (deliver s).rxRemaining = s.rxRemaining := rfl
@[simp] theorem deliver_rxPkt (s : State) : (deliver s).rxPkt = [] := rfl
@[simp] theorem deliver_rxBusy (s : State) : (deliver s).rxBusy = false := rfl
@[simp] theorem deliver_poolAvail (s : State) : (deliver s).poolAvail = s.poolAvail := rfl
@[simp] theorem deliver_rxTotal (s : State) : (deliver s).rxTotal = s.rxTotal := rfl
@[simp] theorem deliver_txState (s : State) : (deliver s).txState = s.txState := rfl
@[simp] theorem deliver_txPkt (s : State) : (deliver s).txPkt = s.txPkt := rfl
@[simp] theorem deliver_txIdx (s : State) : (deliver s).txIdx = s.txIdx := rfl
@[simp] theorem deliver_txNblobs (s : State) : (deliver s).txNblobs = s.txNblobs := rfl
@[simp] theorem deliver_txbuf (s : State) : (deliver s).txbuf = s.txbuf := rfl
@[simp] theorem deliver_pending (s : State) : (deliver s).pending = s.pending := rfl
@[simp] theorem deliver_out (s : State) : (deliver s).out = s.out ++ [.cbPacket s.cfg.connectorId s.rxPkt] := rfl
@[simp] theorem deliver_idleSteps (s : State) : (deliver s).idleSteps = s.idleSteps := rfl

@[simp] theorem resetBlock_cfg (s : State) : (resetBlock s).cfg = s.cfg := rfl
@[simp] theorem resetBlock_connState (s : State) : (resetBlock s).connState = .idle := rfl
@[simp] theorem resetBlock_contact (s : State) : (resetBlock s).contact = false := rfl
@[simp] theorem resetBlock_connected (s : State) : (resetBlock s).connected = false := rfl
@[simp] theorem resetBlock_chanEn (s : State) : (resetBlock s).chanEn = false := rfl
@[simp] theorem resetBlock_orientation (s : State) : (resetBlock s).orientation = .oriNone := rfl
@[simp] theorem resetBlock_faultFlags (s : State) : (resetBlock s).faultFlags = 0#8 := rfl
@[simp] theorem resetBlock_tmr (s : State) : (resetBlock s).tmr = .off := rfl
@[simp] theorem resetBlock_retryCnt (s : State) : (resetBlock s).retryCnt = 0 := rfl
@[simp] theorem resetBlock_crcFaultCnt (s : State) : (resetBlock s).crcFaultCnt = 0 := rfl
@[simp] theorem resetBlock_rxState (s : State) : (resetBlock s).rxState = .expectHeader := rfl
@[simp] theorem resetBlock_rxBlob (s : State) : (resetBlock s).rxBlob = [] := rfl
@[simp] theorem resetBlock_rxRemaining (s : State) : (resetBlock s).rxRemaining = 0#17 := rfl
@[simp] theorem resetBlock_rxPkt (s : State) : (resetBlock s).rxPkt = [] := rfl
@[simp] theorem resetBlock_rxBusy (s : State) : (resetBlock s).rxBusy = false := rfl
@[simp] theorem resetBlock_poolAvail (s : State) : (resetBlock s).poolAvail = false := rfl
@[simp] theorem resetBlock_rxTotal (s : State) : (resetBlock s).rxTotal = 0#16 := rfl
@[simp] theorem resetBlock_txState (s : State) : (resetBlock s).txState = .idle := rfl
@[simp] theorem resetBlock_txPkt (s : State) : (resetBlock s).txPkt = [] := rfl
@[simp] theorem resetBlock_txIdx (s : State) : (resetBlock s).txIdx = 0#17 := rfl
@[simp] theorem resetBlock_txNblobs (s : State) : (resetBlock s).txNblobs = 0#17 := rfl
@[simp] theorem resetBlock_txbuf (s : State) : (resetBlock s).txbuf = s.txbuf := rfl
@[simp] theorem resetBlock_pending (s : State) : (resetBlock s).pending = s.pending := rfl
@[simp] theorem resetBlock_out (s : State) : (resetBlock s).out = s.out := rfl
@[simp] theorem resetBlock_idleSteps (s : State) : (resetBlock s).idleSteps = s.idleSteps := rfl

end Sys2Proof.Machine
end

