-- ==== Sys2Proof/Laws/Ops.lean ====
section
/-! SUPPORT. One equation per shared procedure: all that it can do, in one record. Later proofs cite these and never unfold
the procedures. -/

namespace Sys2Proof.Machine

@[simp] theorem sendCleared_txState (s : State) : (sendCleared s).txState = .idle := by
  unfold sendCleared; split
  · rfl
  · cases h : s.txState <;> simp_all

/-- `GoIdle`, rule R194. -/
theorem goIdle_eq (s : State) : goIdle s =
    { s with connState := .idle, tmr := .off, retryCnt := 0,
             out := s.out ++ if s.tmr = .off then [] else [.tmrCancel] } := by
  obtain ⟨cfg, conn, contact, connected, chanEn, ori, ff, tmr⟩ := s
  cases tmr <;> simp [goIdle, emit]

/-- `LeaveConnected`, rule R196. -/
theorem leaveConnected_eq (s : State) : leaveConnected s = afterLeaving s.connState s := by
  unfold leaveConnected leaveReceive leaveSend afterLeaving sendCleared abortFlags leaveOutputs
  by_cases ht : s.txState = .sending <;> by_cases hr : s.rxBusy = true <;>
    simp [ht, hr, txAbort, rxClear, emit, setFlag, errorFlag, flagMask, flagBit, BitVec.or_assoc]

/-- A transaction boundary, rule R170. -/
theorem endTransaction_eq (s : State) : endTransaction s =
    { sendCleared s with
      faultFlags := abortFlags s, rxState := .expectHeader, rxBlob := [], rxRemaining := 0#17, rxPkt := [],
      rxBusy := false, out := s.out ++ boundaryOutputs s } := by
  unfold endTransaction sendCleared abortFlags boundaryOutputs
  by_cases ht : s.txState = .sending <;> by_cases hr : s.rxBusy = true <;>
    simp [ht, hr, txAbort, rxClear, emit, setFlag, errorFlag, flagMask, flagBit, BitVec.or_assoc]

/-- A receive fault of a kind that is not counted, rule R149. -/
theorem rxFault_eq {k : ErrorKind} (hk : k ≠ .crcMismatch) (s : State) : rxFault k s = afterReceiveFault k s := by
  simp [rxFault, hk, afterReceiveFault, emit, setFlag, rxClear]

/-- A CRC fault below the limit, rule R149. -/
theorem rxFault_crc_below {s : State} (h : s.crcFaultCnt + 1 < s.cfg.crcFaultLimit) :
    rxFault .crcMismatch s = { afterReceiveFault .crcMismatch s with crcFaultCnt := s.crcFaultCnt + 1 } := by
  simp [rxFault, countCrcFault, afterReceiveFault, emit, setFlag, rxClear, Nat.not_le.mpr h]

/-- The CRC fault that reaches the limit, rule R149: the connector leaves `CONNECTED`. -/
theorem rxFault_crc_limit {s : State} (h : s.cfg.crcFaultLimit ≤ s.crcFaultCnt + 1) :
    rxFault .crcMismatch s =
      afterLeaving .disconnecting
        { afterReceiveFault .crcMismatch s with
          crcFaultCnt := s.crcFaultCnt + 1,
          faultFlags := s.faultFlags ||| flagMask .crc ||| flagMask .crcPersist } := by
  unfold rxFault countCrcFault
  simp only [leaveConnected_eq]
  by_cases ht : s.txState = .sending <;>
    simp [h, ht, afterReceiveFault, afterLeaving, sendCleared, abortFlags, leaveOutputs, emit, setFlag, rxClear,
      errorFlag]

/-- The three header tests of rule R144 as one proposition. -/
theorem lengthRejected_iff (s : State) (n : Nat) : lengthRejected s n = true ↔
    s.cfg.maxBlobPayload < n ∨ (s.cfg.termMode = .apriori ∧ s.rxTotal.toNat < s.rxPkt.length + n) ∨
      (s.cfg.termMode = .sentinel ∧ s.cfg.maxPacket < s.rxPkt.length + n) := by
  unfold lengthRejected
  cases s.cfg.termMode <;> simp

/-- Every operation answers a next state (rule R280, decision D24), and which one. -/
theorem exec_send (len : Nat) (s : State) : exec (.send len) s = .next (sendPacket len s) := rfl
theorem exec_rxlen (total : Nat) (s : State) : exec (.rxlen total) s = .next (setExpectedLength total s) := rfl
theorem exec_disc (s : State) : exec .disc s = .next (disconnect s) := rfl
theorem exec_rxb (b : Byte) (s : State) : exec (.rxb b) s = .next (receiveByte b s) := rfl
theorem exec_wrdone (s : State) : exec .wrdone s = .next (writeDone s) := rfl
theorem exec_txnend (s : State) : exec .txnend s = .next (endTransaction s) := rfl
theorem exec_chabort (s : State) : exec .chabort s = .next (endTransaction s) := rfl
theorem exec_contact (s : State) : exec .contact s = .next (contactMade s) := rfl
theorem exec_nocontact (s : State) : exec .nocontact s = .next (contactLost s) := rfl
theorem exec_present (s : State) : exec .present s = .next (partnerPresent s) := rfl
theorem exec_orient (o : BitVec 2) (s : State) :
    exec (.orient o) s = .next (orientationFound (orientationOperand o) s) := rfl
theorem exec_tmodet (s : State) : exec .tmodet s = .next (detectTimeout s) := rfl
theorem exec_tmoneg (s : State) : exec .tmoneg s = .next (negotiateTimeout s) := rfl
theorem exec_poolav (a : Bool) (s : State) : exec (.poolav a) s = .next { s with poolAvail := a } := rfl
theorem exec_discdone (s : State) : exec .discdone s = .next (teardownDone s) := rfl
theorem exec_reset (s : State) : exec .reset s = .next (resetBlock s) := rfl

/-- `DISC`, rule R198, in one record. -/
theorem disconnect_eq (s : State) :
    disconnect s = if s.connState = .connected then afterLeaving .disconnecting s else s := by
  unfold disconnect
  by_cases h : s.connState = .connected
  · simp only [h, if_true, leaveConnected_eq]
    by_cases ht : s.txState = .sending <;> simp [afterLeaving, sendCleared, ht]
  · simp [h]

/-- What a step can do when it answers a next state: the block's own step, or one operation after the host's stores. -/
theorem step_next_cases {s t : State} (h : step s = .next t) :
    (s.pending = [] ∧ t = idleStep s) ∨
    ∃ e rest m i, s.pending = e :: rest ∧ hostStores s.cfg.maxPacket e.hostWrites s.txbuf = .ok m ∧
      decode e.word = .ok i ∧ exec i { s with pending := rest, txbuf := m } = .next t := by
  unfold step takeEvent fillTxbuf at h
  cases hp : s.pending with
  | nil => left; simp [hp] at h; exact ⟨rfl, h.symm⟩
  | cons e rest =>
    right
    simp only [hp] at h
    cases hm : hostStores s.cfg.maxPacket e.hostWrites s.txbuf with
    | error a => simp [hm] at h
    | ok m =>
      cases hd : decode e.word with
      | error why => simp [hm, hd] at h
      | ok i => simp only [hm, hd] at h; exact ⟨e, rest, m, i, rfl, hm, hd, h⟩

end Sys2Proof.Machine
end

