-- ==== Sys2Proof/Laws/PerInstr.lean ====
section
/-! SUPPORT. Family `TableRow`, one lemma per operation: the word of a well-formed operation has the bits that the opcode
table fixes for the row of its mnemonic. -/

namespace Sys2Proof.Laws.TableRow

/-- The operation's word matches its row of the opcode table. -/
def Statement (i : Instr) : Prop :=
  i.wf = true → ∃ r, r ∈ opcodeTable ∧ r.mnemonic = mnemonic i ∧ r.matchesWord (encode i) = true

theorem send (len : Nat) : Statement (.send len) := by
  intro h
  refine ⟨⟨"SEND", 0x01000000#32, 0xFFFF0000#32⟩, by decide, rfl, ?_⟩
  rw [matchesWord_iff (k := 16) (by decide), encode, eventWord_toNat]
  have := (operandImm (.send len)).isLt
  simp only [opcode, BitVec.toNat_ofNat]
  omega

theorem rxlen (total : Nat) : Statement (.rxlen total) := by
  intro h
  refine ⟨⟨"RXLEN", 0x02000000#32, 0xFFFF0000#32⟩, by decide, rfl, ?_⟩
  rw [matchesWord_iff (k := 16) (by decide), encode, eventWord_toNat]
  have := (operandImm (.rxlen total)).isLt
  simp only [opcode, BitVec.toNat_ofNat]
  omega

theorem disc : Statement .disc := by intro; decide

theorem rxb (b : Byte) : Statement (.rxb b) := by
  intro h
  refine ⟨⟨"RXB", 0x10000000#32, 0xFFFFFF00#32⟩, by decide, rfl, ?_⟩
  rw [matchesWord_iff (k := 8) (by decide), encode, eventWord_toNat]
  have := b.isLt
  simp only [opcode, operandImm, BitVec.toNat_ofNat, BitVec.toNat_setWidth]
  omega

theorem wrdone : Statement .wrdone := by intro; decide
theorem txnend : Statement .txnend := by intro; decide
theorem chabort : Statement .chabort := by intro; decide
theorem contact : Statement .contact := by intro; decide
theorem nocontact : Statement .nocontact := by intro; decide
theorem present : Statement .present := by intro; decide

theorem orient (o : BitVec 2) : Statement (.orient o) := by
  intro h
  refine ⟨⟨"ORIENT", 0x23000000#32, 0xFFFFFFFC#32⟩, by decide, rfl, ?_⟩
  revert o; decide

theorem tmodet : Statement .tmodet := by intro; decide
theorem tmoneg : Statement .tmoneg := by intro; decide

theorem poolav (a : Bool) : Statement (.poolav a) := by
  intro h
  refine ⟨⟨"POOLAV", 0x30000000#32, 0xFFFFFFFE#32⟩, by decide, rfl, ?_⟩
  revert a; decide

theorem discdone : Statement .discdone := by intro; decide
theorem reset : Statement .reset := by intro; decide

end Sys2Proof.Laws.TableRow
end

