-- ==== Sys2Proof/Laws/Receive.lean ====
section
/-! SUPPORT. The receive path: one equation per case of a byte (rules R141 to R149), and once what a byte can do. -/

namespace Sys2Proof.Machine

/-- The CRC test of rule R147 in terms of the blob's bytes. -/
theorem crcValid_iff (s : State) :
    crcValid s = true ↔
      crc32 s.cfg.crcCfg (s.rxBlob.take (2 + decodeLen s.cfg.wireEndian (s.rxBlob.take 2))) =
        decodeCrc s.cfg.wireEndian ((s.rxBlob.drop (2 + decodeLen s.cfg.wireEndian (s.rxBlob.take 2))).take 4) := by
  simp [crcValid, seqRead]

/-- A dropped byte, rule R141. -/
theorem receiveByte_dropped (b : Byte) {s : State} (h : s.chanEn = false ∨ s.rxState = .fault) : receiveByte b s = s := by
  unfold receiveByte
  rcases h with h | h <;> simp [h]

/-- A header byte, rule R141. -/
theorem receiveByte_header (b : Byte) {s : State} (hc : s.chanEn = true) (hs : s.rxState = .expectHeader) :
    receiveByte b s = headerByte b s := by
  simp [receiveByte, hc, hs]

/-- A payload or trailer byte, rule R141. -/
theorem receiveByte_body (b : Byte) {s : State} (hc : s.chanEn = true) (hs : s.rxState = .expectPayload) :
    receiveByte b s = bodyByte b s := by
  simp [receiveByte, hc, hs]

/-- The header byte that finds no Block, rule R143. -/
theorem headerByte_noBlock (b : Byte) {s : State} (hb : s.rxBusy = false) (hp : s.poolAvail = false) :
    headerByte b s = afterReceiveFault .outOfMemory s := by
  rw [headerByte, if_pos hb, if_pos hp, rxFault_eq (by decide)]

/-- Any other header byte is stored, and a Block is held from then on, rules R143 and R144. -/
theorem headerByte_store (b : Byte) {s : State} (h : s.rxBusy = true ∨ s.poolAvail = true) :
    headerByte b s = headerStore b { s with rxBusy := true } := by
  unfold headerByte
  cases hb : s.rxBusy with
  | false => simp [h.resolve_left (by simp [hb])]
  | true =>
    have : { s with rxBusy := true } = s := by rw [← hb]
    rw [this]
    simp

/-- A byte that is not the last of its blob, rule R145. -/
theorem bodyByte_more (b : Byte) {s : State} (hr : s.rxRemaining ≠ 1#17) :
    bodyByte b s = { s with rxBlob := s.rxBlob ++ [b], rxRemaining := s.rxRemaining - 1#17 } := by
  have h : ¬s.rxRemaining - 1#17 = 0#17 := fun h => hr (by bv_omega)
  exact if_neg h

/-- The last byte of a blob, rule R145. -/
theorem bodyByte_last (b : Byte) {s : State} (hr : s.rxRemaining = 1#17) :
    bodyByte b s = blobComplete { s with rxBlob := s.rxBlob ++ [b], rxRemaining := 0#17 } := by
  have h : s.rxRemaining - 1#17 = 0#17 := by rw [hr]; rfl
  unfold bodyByte
  rw [h]
  exact if_pos rfl

/-- A receive fault leaves the same state whatever the blob and the block held were. -/
theorem afterReceiveFault_forgets (k : ErrorKind) (s : State) (busy : Bool) (blob : List Byte) (r : BitVec 17) :
    afterReceiveFault k { s with rxBusy := busy, rxBlob := blob, rxRemaining := r } = afterReceiveFault k s := rfl

/-- Once what `RXB` can do: drop the byte, fault, store it, or complete a blob; with the state each leaves. -/
theorem receiveByte_cases (b : Byte) (s : State) :
    (receiveByte b s = s ∧ (s.chanEn = false ∨ s.rxState = .fault)) ∨
    (s.chanEn = true ∧ s.rxState = .expectHeader ∧
      ((receiveByte b s = afterReceiveFault .outOfMemory s ∧ s.rxBusy = false) ∨
       receiveByte b s = afterReceiveFault .lengthOutOfRange s ∨
       receiveByte b s = { s with rxBusy := true, rxBlob := s.rxBlob ++ [b] } ∨
       receiveByte b s =
        { s with rxBusy := true, rxBlob := s.rxBlob ++ [b], rxState := .expectPayload,
                 rxRemaining := BitVec.ofNat 17 (decodeLen s.cfg.wireEndian ((s.rxBlob ++ [b]).take 2) + 4) })) ∨
    (s.chanEn = true ∧ s.rxState = .expectPayload ∧
      ((¬persistentCrcFault b s ∧
        (receiveByte b s = { s with rxBlob := s.rxBlob ++ [b], rxRemaining := s.rxRemaining - 1#17 } ∨
         receiveByte b s = { afterReceiveFault .crcMismatch s with crcFaultCnt := s.crcFaultCnt + 1 } ∨
         ∃ pkt, receiveByte b s =
            { s with crcFaultCnt := 0, rxPkt := pkt, rxBlob := [], rxRemaining := 0#17, rxState := .expectHeader } ∨
          receiveByte b s =
            { s with crcFaultCnt := 0, rxPkt := [], rxBlob := [], rxRemaining := 0#17, rxState := .expectHeader,
                     rxBusy := false, out := s.out ++ [.cbPacket s.cfg.connectorId pkt] })) ∨
       (persistentCrcFault b s ∧ receiveByte b s =
          afterLeaving .disconnecting
            { afterReceiveFault .crcMismatch s with
              crcFaultCnt := s.crcFaultCnt + 1,
              faultFlags := s.faultFlags ||| flagMask .crc ||| flagMask .crcPersist }))) := by
  by_cases hd : s.chanEn = false ∨ s.rxState = .fault
  · exact .inl ⟨receiveByte_dropped b hd, hd⟩
  right
  have hc : s.chanEn = true := by
    cases h : s.chanEn with
    | false => exact absurd (.inl h) hd
    | true => rfl
  have hcases : s.rxState = .expectHeader ∨ s.rxState = .expectPayload := by
    cases h : s.rxState with
    | fault => exact absurd (.inr h) hd
    | expectHeader => exact .inl rfl
    | expectPayload => exact .inr rfl
  rcases hcases with hs | hs
  · refine .inl ⟨hc, hs, ?_⟩
    rw [receiveByte_header b hc hs]
    by_cases hp : s.rxBusy = true ∨ s.poolAvail = true
    · right
      rw [headerByte_store b hp]
      unfold headerStore headerComplete
      simp only
      split
      · split
        · left; rw [rxFault_eq (by decide)]; rfl
        · exact .inr (.inr rfl)
      · exact .inr (.inl rfl)
    · simp only [not_or, Bool.not_eq_true] at hp
      exact .inl ⟨headerByte_noBlock b hp.1 hp.2, hp.1⟩
  · refine .inr ⟨hc, hs, ?_⟩
    rw [receiveByte_body b hc hs]
    by_cases hr : s.rxRemaining = 1#17
    · rw [bodyByte_last b hr, blobComplete]
      by_cases hv : crcValid { s with rxBlob := s.rxBlob ++ [b] } = true
      · refine .inl ⟨fun h => ?_, .inr (.inr ?_)⟩
        · rw [h.2.2.2.1] at hv; cases hv
        · have hv' : crcValid { s with rxBlob := s.rxBlob ++ [b], rxRemaining := 0#17 } = true := hv
          rw [if_pos hv']
          unfold acceptBlob deliver
          simp only
          split
          · exact ⟨_, .inr rfl⟩
          · exact ⟨_, .inl rfl⟩
      · have hv' : crcValid { s with rxBlob := s.rxBlob ++ [b], rxRemaining := 0#17 } = false := by
          cases h : crcValid { s with rxBlob := s.rxBlob ++ [b], rxRemaining := 0#17 } with
          | true => exact absurd h hv
          | false => rfl
        rw [if_neg (by simp [hv'])]
        by_cases hl : s.cfg.crcFaultLimit ≤ s.crcFaultCnt + 1
        · exact .inr ⟨⟨hc, hs, hr, hv', hl⟩, rxFault_crc_limit hl⟩
        · exact .inl ⟨fun h => hl h.2.2.2.2, .inr (.inl (rxFault_crc_below (Nat.lt_of_not_le hl)))⟩
    · exact .inl ⟨fun h => hr h.2.2.1, .inl (bodyByte_more b hr)⟩

end Sys2Proof.Machine
end

