-- ==== Sys2Proof/Laws/Runs.lean ====
section
/-! SUPPORT. Operations one after another: a run in two parts, and what the bytes of one valid blob do to the receive
path. -/

namespace Sys2Proof.Machine

/-- A run of one list of operations and then another. -/
theorem runAll_append {l : List Instr} {s t : State} (h : runAll l s = .next t) (l' : List Instr) :
    runAll (l ++ l') s = runAll l' t := by
  induction l generalizing s with
  | nil => cases h; rfl
  | cons i l ih =>
    simp only [runAll, List.cons_append] at h ⊢
    cases hi : exec i s with
    | next u => simp only [hi] at h ⊢; exact ih h
    | fault r => simp [hi] at h
    | refused r => simp [hi] at h

/-- Payload and trailer bytes up to the last but one of a blob are stored, rule R145. -/
theorem runAll_bodyBytes (l : List Byte) {s : State} (hc : s.chanEn = true) (hs : s.rxState = .expectPayload)
    (hr : l.length < s.rxRemaining.toNat) :
    runAll (rxBytes l) s = .next
      { s with rxBlob := s.rxBlob ++ l, rxRemaining := s.rxRemaining - BitVec.ofNat 17 l.length } := by
  induction l generalizing s with
  | nil => simp [rxBytes, runAll]
  | cons b l ih =>
    simp only [List.length_cons] at hr
    have := s.rxRemaining.isLt
    have h₁ : s.rxRemaining ≠ 1#17 := by intro h; rw [h] at hr; simp at hr
    have h₂ : (s.rxRemaining - 1#17).toNat = s.rxRemaining.toNat - 1 := by
      simp only [BitVec.toNat_sub, BitVec.toNat_ofNat]
      omega
    have h₃ : s.rxRemaining - 1#17 - BitVec.ofNat 17 l.length = s.rxRemaining - BitVec.ofNat 17 (l.length + 1) := by
      apply BitVec.eq_of_toNat_eq
      simp only [BitVec.toNat_sub, BitVec.toNat_ofNat]
      omega
    have ih' := ih (s := { s with rxBlob := s.rxBlob ++ [b], rxRemaining := s.rxRemaining - 1#17 }) hc hs
      (by simp only [h₂]; omega)
    show runAll (.rxb b :: rxBytes l) s = _
    rw [runAll, exec_rxb, receiveByte_body b hc hs, bodyByte_more b h₁]
    simp only [ih']
    simp [h₃]

/-- What the bytes of one valid blob do, rules R143 to R147: until the last byte nothing is emitted, and with it the payload
is appended and the packet perhaps delivered. -/
theorem runAll_rxBlob {s : State} {payload : List Byte} (hc : s.chanEn = true) (hs : s.rxState = .expectHeader)
    (hb : s.rxBlob = []) (hp : s.rxBusy = true ∨ s.poolAvail = true) (hcap : payload.length ≤ s.cfg.maxBlobPayload)
    (hroom : lengthRejected s payload.length = false) :
    (∃ t, runAll (rxBytes (encodeBlob s.cfg payload).dropLast) s = .next t ∧ t.out = s.out) ∧
    runAll (rxBlobOps s.cfg payload) s = .next
      (let t := { s with crcFaultCnt := 0, rxPkt := s.rxPkt ++ payload, rxBlob := [], rxRemaining := 0#17,
                         rxState := .expectHeader, rxBusy := true }
       if packetComplete t payload.length then deliver t else t) := by
  have hle := cap_le s.cfg
  obtain ⟨h0, h1, hh⟩ : ∃ h0 h1, encodeLen s.cfg.wireEndian payload.length = [h0, h1] := by
    cases s.cfg.wireEndian <;> exact ⟨_, _, rfl⟩
  have hdec : decodeLen s.cfg.wireEndian [h0, h1] = payload.length := by
    rw [← hh, decodeLen_encodeLen _ (by omega)]
  obtain ⟨c, hcdef⟩ : ∃ c,
      c = encodeCrc s.cfg.wireEndian (crc32 s.cfg.crcCfg (encodeLen s.cfg.wireEndian payload.length ++ payload)) :=
    ⟨_, rfl⟩
  have hl4 : c.length = 4 := by rw [hcdef, encodeCrc_length]
  obtain ⟨ci, cl, hcc⟩ : ∃ ci cl, c = ci ++ [cl] :=
    ⟨c.dropLast, c.getLast (by intro h; simp [h] at hl4), (List.dropLast_append_getLast _).symm⟩
  have hci : ci.length = 3 := by rw [hcc] at hl4; simpa using hl4
  have heb : encodeBlob s.cfg payload = h0 :: h1 :: (payload ++ ci) ++ [cl] := by
    simp only [encodeBlob, ← hcdef]
    rw [hcc, hh]
    simp
  have hdl : (encodeBlob s.cfg payload).dropLast = h0 :: h1 :: (payload ++ ci) := by
    rw [heb]
    exact List.dropLast_concat
  let s1 : State := { s with rxBusy := true, rxBlob := [h0] }
  let s2 : State :=
    { s with rxBusy := true, rxBlob := [h0, h1], rxState := .expectPayload,
             rxRemaining := BitVec.ofNat 17 (payload.length + 4) }
  let s3 : State := { s2 with rxBlob := [h0, h1] ++ (payload ++ ci), rxRemaining := 1#17 }
  have e1 : exec (.rxb h0) s = .next s1 := by
    rw [exec_rxb, receiveByte_header _ hc hs, headerByte_store _ hp]
    simp [headerStore, hb, s1]
  have e2 : exec (.rxb h1) s1 = .next s2 := by
    rw [exec_rxb, receiveByte_header (s := s1) _ hc hs, headerByte_store (s := s1) _ (.inl rfl)]
    have : lengthRejected { s with rxBusy := true, rxBlob := [h0, h1] } payload.length = false := hroom
    simp [headerStore, s1, s2, headerComplete, seqRead, hdec, this]
  have e3 : runAll (rxBytes (payload ++ ci)) s2 = .next s3 := by
    rw [runAll_bodyBytes (s := s2) _ hc rfl (by simp [s2, hci]; omega)]
    simp only [s3, s2]
    congr 2
    apply BitVec.eq_of_toNat_eq
    simp only [BitVec.toNat_sub, BitVec.toNat_ofNat, List.length_append, hci]
    omega
  have hD : runAll (rxBytes (encodeBlob s.cfg payload).dropLast) s = .next s3 := by
    rw [hdl]
    show runAll (.rxb h0 :: .rxb h1 :: rxBytes (payload ++ ci)) s = _
    simp only [runAll, e1, e2]
    exact e3
  refine ⟨⟨s3, hD, rfl⟩, ?_⟩
  have hsplit : rxBlobOps s.cfg payload = rxBytes (encodeBlob s.cfg payload).dropLast ++ [.rxb cl] := by
    rw [rxBlobOps, hdl, heb]
    simp [rxBytes]
  have hblob : s3.rxBlob ++ [cl] = encodeBlob s.cfg payload := by rw [heb]; simp [s3]
  have t2 := encodeBlob_take_two s.cfg payload
  have hv : crcValid { s3 with rxBlob := encodeBlob s.cfg payload, rxRemaining := 0#17 } = true := by
    rw [crcValid_iff]
    simp only [t2, s3, s2, hh, hdec]
    rw [encodeBlob_take_covered, encodeBlob_drop_covered, List.take_of_length_le (by simp), decodeCrc_encodeCrc]
  rw [hsplit, runAll_append hD]
  simp only [runAll, exec_rxb]
  rw [receiveByte_body (s := s3) _ hc rfl, bodyByte_last (s := s3) _ rfl, hblob, blobComplete, if_pos hv]
  simp only [acceptBlob, seqRead, List.drop_zero, t2, encodeBlob_drop_two, s3, s2, hh, hdec]
  rw [List.take_left' rfl]

end Sys2Proof.Machine
end

