-- ==== Sys2Proof/Tests/Slice0.lean ====
section
/-! SUPPORT. The model's own tests, each about one step; the expected results are the vectors of
spec/95_test_vectors.md (named in each comment) or, where it says so, the words a rule's table gives. Then one witness per
statement that has hypotheses: a state and operands that meet them, clause by clause at the boundary values. -/

namespace Sys2Proof.Tests

open Sys2Proof Sys2Proof.Machine

/-! ### Small states -/

/-- The parameters of the vectors: `P = 10`, `M = 64`, `DETECT_RETRY_MAX = 2`, `CRC_FAULT_LIMIT = 3`. -/
def small : Params :=
  { blobPayloadPred := 9, maxPacketLen := 64, termMode := .apriori, wireEndian := .little, crcCfg := .isoHdlc,
    detectRetryMax := some 2, crcFaultLimitPred := 2, connectorId := 0x00#8, tDetectPred := 0, tNegotiatePred := 0 }

/-- The same with `TERM_MODE = SENTINEL`. -/
def smallSentinel : Params := { small with termMode := .sentinel }

/-- The state after reset under those parameters. -/
def quiet : State := State.resetWith small

/-- A connected state, all else as after reset but for the pool and `rx_total`. -/
def linked (total : BitVec 16) : State :=
  { quiet with connState := .connected, contact := true, connected := true, chanEn := true, orientation := .ori2,
               poolAvail := true, rxTotal := total }

/-- `detecting` and `negotiating` as the handshake reaches them. -/
def detecting : State := { quiet with connState := .detecting, contact := true, tmr := .det }
def negotiating : State := { quiet with connState := .negotiating, contact := true, tmr := .neg }
def tearingDown : State := { quiet with connState := .disconnecting, contact := true }

/-- Bytes from numbers. -/
def bytes (l : List Nat) : List Byte := l.map (BitVec.ofNat 8)

/-- The bytes 0x30, 0x31, ... as the packets of the vectors have them. -/
def ramp (n : Nat) : List Byte := (List.range n).map fun k => BitVec.ofNat 8 (0x30 + k)

/-- `TXBUF` holding `ramp n`. -/
def rampBuffer (n : Nat) : Memory := (List.range n).zip (ramp n)

/-- `K0` of the vectors. -/
def wireK0 : List Byte :=
  bytes [0x0A, 0x00, 0x30, 0x31, 0x32, 0x33, 0x34, 0x35, 0x36, 0x37, 0x38, 0x39, 0xBE, 0x81, 0xEC, 0xD4]

/-- `K1` of the vectors. -/
def wireK1 : List Byte :=
  bytes [0x0A, 0x00, 0x3A, 0x3B, 0x3C, 0x3D, 0x3E, 0x3F, 0x40, 0x41, 0x42, 0x43, 0xBD, 0x2B, 0x56, 0x83]

/-- `B_HELLO` of the vectors without its last byte, which is 0xFE. -/
def helloStart : List Byte := bytes [0x05, 0x00, 0x48, 0x65, 0x6C, 0x6C, 0x6F, 0x46, 0x8E, 0xA7]

/-- A connected state with a 25-byte send in flight, blob `idx` handed to the channel. -/
def sending (idx : BitVec 17) : State :=
  { linked 25#16 with txState := .sending, txPkt := ramp 25, txNblobs := 3#17, txIdx := idx }

/-- A connected state waiting for the last byte of `B_HELLO`. -/
def lastByteDue : State :=
  { linked 5#16 with rxState := .expectPayload, rxBusy := true, rxBlob := helloStart, rxRemaining := 1#17 }

/-- The same in `SENTINEL` mode, the last byte of `B_EMPTY` due (it is 0x41) after one appended blob. -/
def sentinelDue : State :=
  { linked 0#16 with cfg := smallSentinel, rxState := .expectPayload, rxBusy := true, rxPkt := ramp 3,
                     rxBlob := bytes [0x00, 0x00, 0xFF, 0x12, 0xD9], rxRemaining := 1#17 }

/-- The next state of a step, if there is one. -/
def next? : Host.Outcome State Fault Refusal → Option State
  | .next t => some t
  | .fault _ => none
  | .refused _ => none

/-- The outputs of an operation in a state that has emitted none. -/
def outputs (i : Instr) (s : State) : Option (List Output) := (next? (exec i s)).map (·.out)

/-! ### Well-formed operations and event words -/

theorem test_wf_send_refuses_17_bits : (Instr.send 65536).wf = false := by decide
theorem test_wf_rxlen_refuses_17_bits : (Instr.rxlen 65536).wf = false := by decide
theorem test_wf_send_admits_the_largest : (Instr.send 65535).wf = true := by decide
theorem test_wf_rxlen_admits_zero : (Instr.rxlen 0).wf = true := by decide

/-- Vectors E7. -/
theorem test_decode_send : decode 0x01000019#32 = .ok (.send 25) := by decide
theorem test_decode_rxlen : decode 0x0200FFFF#32 = .ok (.rxlen 65535) := by decide
theorem test_decode_disc : decode 0x03000000#32 = .ok .disc := by decide
theorem test_decode_rxb : decode 0x100000FF#32 = .ok (.rxb 0xFF#8) := by decide
theorem test_decode_wrdone : decode 0x11000000#32 = .ok .wrdone := by decide
theorem test_decode_txnend : decode 0x12000000#32 = .ok .txnend := by decide
theorem test_decode_chabort : decode 0x13000000#32 = .ok .chabort := by decide
theorem test_decode_contact : decode 0x20000000#32 = .ok .contact := by decide
theorem test_decode_nocontact : decode 0x21000000#32 = .ok .nocontact := by decide
theorem test_decode_present : decode 0x22000000#32 = .ok .present := by decide
theorem test_decode_orient : decode 0x23000003#32 = .ok (.orient 3#2) := by decide
theorem test_decode_tmodet : decode 0x24000000#32 = .ok .tmodet := by decide
theorem test_decode_tmoneg : decode 0x25000000#32 = .ok .tmoneg := by decide
theorem test_decode_poolav : decode 0x30000001#32 = .ok (.poolav true) := by decide
theorem test_decode_discdone : decode 0x40000000#32 = .ok .discdone := by decide
theorem test_decode_reset : decode 0xF0000000#32 = .ok .reset := by decide

/-- Vectors E8: reserved words. -/
theorem test_decode_unknown_op : decode 0x14000000#32 = .error (.unknownOp 0x14#8) := by decide
theorem test_decode_z_nonzero : decode 0x12010000#32 = .error (.zNonzero 0x01#8) := by decide
theorem test_decode_imm_nonzero : decode 0x11000001#32 = .error (.immNonzero 0x0001#16) := by decide
theorem test_decode_rxb_high_byte : decode 0x10000100#32 = .error (.immNonzero 0x0100#16) := by decide
theorem test_decode_orient_4 : decode 0x23000004#32 = .error (.immNonzero 0x0004#16) := by decide
theorem test_decode_poolav_2 : decode 0x30000002#32 = .error (.immNonzero 0x0002#16) := by decide

/-- The host's numbering of a table word, and one step of it from reset. -/
theorem test_decodeTableWord : decodeTableWord 32 0x2200_0000 = some .present := by decide
theorem test_step_runs_the_placed_word :
    step (State.reset.withFetchWord 32 0x30000001) = .next { State.reset with poolAvail := true } := rfl
theorem test_step_refuses_a_reserved_word :
    step (State.reset.withFetchWord 32 0xFF000000) = .refused (.reservedWord (.unknownOp 0xFF#8)) := rfl

/-! ### The frame (vectors E1, E4, E5 and the table of blobs) -/

theorem test_blob_hello : encodeBlob small (bytes [0x48, 0x65, 0x6C, 0x6C, 0x6F]) = helloStart ++ [0xFE#8] := by
  decide +kernel
theorem test_blob_empty : encodeBlob small [] = bytes [0x00, 0x00, 0xFF, 0x12, 0xD9, 0x41] := by decide +kernel
theorem test_blob_big_endian : encodeBlob { small with wireEndian := .big } (bytes [0x48, 0x65, 0x6C, 0x6C, 0x6F]) =
    bytes [0x00, 0x05, 0x48, 0x65, 0x6C, 0x6C, 0x6F, 0xFC, 0x52, 0x30, 0x52] := by decide +kernel
theorem test_nBlobs_apriori : [0, 1, 9, 10, 11, 20, 21, 25, 64].map (nBlobs small) = [1, 1, 1, 1, 2, 2, 3, 3, 7] := by
  decide
theorem test_nBlobs_sentinel :
    [0, 1, 9, 10, 11, 20, 21, 25, 64].map (nBlobs smallSentinel) = [1, 2, 2, 2, 3, 3, 4, 4, 8] := by decide

/-! ### One step of each operation -/

/-- Vectors TX1, TX5, TX6. -/
theorem test_send_hands_over_the_first_blob :
    outputs (.send 25) { linked 25#16 with txbuf := rampBuffer 25 } = some [.chWrite wireK0] := by decide +kernel
theorem test_send_too_long : next? (exec (.send 65) (linked 0#16)) =
    some { linked 0#16 with faultFlags := 0x04#8, out := [.cbSendFailed .lengthOutOfRange] } := by decide
/-- Vectors TX2. -/
theorem test_wrdone_hands_over_the_next_blob : outputs .wrdone (sending 0#17) = some [.chWrite wireK1] := by
  decide +kernel
theorem test_wrdone_last : next? (exec .wrdone (sending 2#17)) = some { linked 25#16 with out := [.cbSendDone] } := by
  decide +kernel
/-- Vectors RX11. -/
theorem test_rxlen_largest : next? (exec (.rxlen 64) quiet) = some { quiet with rxTotal := 64#16 } := by decide
theorem test_rxlen_too_long : outputs (.rxlen 65) quiet = some [.cbFault .lengthOutOfRange] := by decide
/-- Vectors RX12, RX16. -/
theorem test_rxb_delivers : next? (exec (.rxb 0xFE#8) lastByteDue) =
    some { linked 5#16 with out := [.cbPacket 0x00#8 (bytes [0x48, 0x65, 0x6C, 0x6C, 0x6F])] } := by decide +kernel
theorem test_rxb_bad_trailer : outputs (.rxb 0x7E#8) lastByteDue = some [.cbFault .crcMismatch] := by decide +kernel
/-- Vectors T4, T6: the send is reported first. -/
theorem test_txnend_both : outputs .txnend { sending 0#17 with rxBusy := true } =
    some [.cbSendFailed .channelAborted, .cbFault .channelAborted] := by decide
theorem test_chabort_quiet : next? (exec .chabort quiet) = some quiet := by decide
/-- Vectors C1 (the handshake). -/
theorem test_contact_probes : next? (exec .contact { quiet with faultFlags := 0x40#8 }) =
    some { detecting with out := [.probe, .tmrArm .det] } := by decide
theorem test_present_negotiates : next? (exec .present detecting) =
    some { negotiating with out := [.negStart, .tmrArm .neg] } := by decide
theorem test_orient_connects : next? (exec (.orient 2#2) negotiating) =
    some { linked 0#16 with poolAvail := false, out := [.tmrCancel, .cbState .ori2 true] } := by decide
/-- Vectors C6: contact lost while detecting, and while connected. -/
theorem test_nocontact_detecting : next? (exec .nocontact detecting) =
    some { quiet with faultFlags := 0x40#8, out := [.tmrCancel] } := by decide
theorem test_nocontact_sending : outputs .nocontact (sending 0#17) =
    some [.chAbortTx, .cbSendFailed .channelAborted, .cbState .oriNone false] := by decide
/-- Vectors C2: the third timeout gives up. -/
theorem test_tmodet_polls_again : next? (exec .tmodet detecting) =
    some { detecting with retryCnt := 1, out := [.probe, .tmrArm .det] } := by decide
theorem test_tmodet_gives_up : next? (exec .tmodet { detecting with retryCnt := 2 }) =
    some { quiet with contact := true, faultFlags := 0x10#8 } := by decide
/-- Vectors C5. -/
theorem test_tmoneg_gives_up : next? (exec .tmoneg negotiating) =
    some { quiet with contact := true, faultFlags := 0x20#8 } := by decide
/-- Vectors C7. -/
theorem test_disc_both : outputs .disc { sending 0#17 with rxBusy := true } =
    some [.chAbortTx, .cbSendFailed .channelAborted, .chAbortRx, .cbFault .channelAborted, .cbState .oriNone false] := by
  decide
theorem test_discdone : next? (exec .discdone tearingDown) = some { quiet with contact := true } := by decide
/-- Rules R220 and R222; vector S2. -/
theorem test_poolav_clears : (next? (exec (.poolav false) (linked 0#16))).map (·.poolAvail) = some false := by decide
theorem test_reset_forgets_a_send : next? (exec .reset (sending 1#17)) = some quiet := by decide

/-! ### Witnesses: the hypotheses of the statements -/

/-- `Inv` holds in a state of each kind that the statements speak of. -/
theorem inv_quiet : Inv quiet := by constructor <;> decide
theorem inv_detecting : Inv { detecting with retryCnt := 2 } := by constructor <;> decide
theorem inv_negotiating : Inv negotiating := by constructor <;> decide
theorem inv_tearingDown : Inv tearingDown := by constructor <;> decide
theorem inv_linked : Inv (linked 64#16) := by constructor <;> decide
theorem inv_sending : Inv { sending 2#17 with rxBusy := true } := by
  constructor <;> decide
theorem inv_lastByteDue : Inv { lastByteDue with crcFaultCnt := 2 } := by
  constructor <;> decide
theorem inv_sentinelDue : Inv sentinelDue := by constructor <;> decide
theorem inv_faulted : Inv { linked 5#16 with rxState := .fault, crcFaultCnt := 2 } := by
  constructor <;> decide

theorem witness_DecodeOfEncodeIsTheOperation :
    (Instr.send 65535).wf = true ∧ (Instr.rxlen 0).wf = true ∧ (Instr.orient 3#2).wf = true := by decide
theorem witness_DecodedWordIsItsEncoding :
    decode 0x0100FFFF#32 = .ok (.send 65535) ∧ decode 0x23000003#32 = .ok (.orient 3#2) := by decide
theorem witness_DecoderReadsExactlyTheTable :
    (∃ r ∈ opcodeTable, r.matchesWord 0x0100FFFF#32 = true) ∧ (∀ r ∈ opcodeTable, r.matchesWord 0x04000000#32 = false) ∧
    ∃ r ∈ opcodeTable, r.matchesWord 0xF0000000#32 = true := by decide

/-- A pending event whose host stores reach the last address of `TXBUF`. -/
def withEvent (w : EventWord) (a : Nat) : State := { quiet with pending := [{ word := w, hostWrites := [(a, 0x07#8)] }] }

theorem witness_StepRunsTheDecodedOperation :
    ((withEvent 0x30000001#32 63).pending = [{ word := 0x30000001#32, hostWrites := [(63, 0x07#8)] }] ∧
      hostStores small.maxPacket [(63, 0x07#8)] [] = .ok [(63, 0x07#8)] ∧ decode 0x30000001#32 = .ok (.poolav true)) ∧
    decode (tableWord 32 0x0200FFFF) = .ok (.rxlen 65535) := ⟨⟨rfl, rfl, by decide⟩, by decide⟩
theorem witness_ReservedWordIsRefused :
    (withEvent 0x23000004#32 63).pending = [{ word := 0x23000004#32, hostWrites := [(63, 0x07#8)] }] ∧
      hostStores small.maxPacket [(63, 0x07#8)] [] = .ok [(63, 0x07#8)] ∧
      decode 0x23000004#32 = .error (.immNonzero 0x0004#16) := ⟨rfl, rfl, by decide⟩
theorem witness_HostStoresLandInsideTxbufOnly :
    ((withEvent 0x30000001#32 64).pending = [{ word := 0x30000001#32, hostWrites := [(64, 0x07#8)] }] ∧
      ∃ c ∈ [((64, 0x07#8) : Host.Cell)], small.maxPacket ≤ c.1) ∧
    (Memory.wf (rampBuffer 3) = true ∧ ∀ c ∈ [((63, 0x00#8) : Host.Cell), (0, 0x00#8)], c.1 < small.maxPacket) := by decide
theorem witness_StepWithNothingPending :
    (quiet.pending = [] ∧ quiet.connState ≠ .disconnecting) ∧
    (tearingDown.pending = [] ∧ tearingDown.connState = .disconnecting) := by decide
theorem witness_LengthFieldLayout : (0 ≤ 65535) ∧ (65535 ≤ 65535) := by decide
theorem witness_OneByteChangeChangesTheCrc : CrcCfg.isoHdlc.poly.getLsbD 0 = true ∧ (0x00#8 ≠ 0x01#8) := by decide
theorem witness_BlobLayoutAndSize :
    ([] : List Byte).length ≤ small.maxBlobPayload ∧ (ramp 10).length = small.maxBlobPayload := by decide
theorem witness_SegmentationOfAPacket :
    ((ramp 64).length = small.maxPacket ∧ small.termMode = .apriori ∧ 5 + 1 < nBlobs small 64 ∧ 0 < (ramp 64).length) ∧
    (([] : List Byte).length ≤ small.maxPacket ∧ ([] : List Byte).length = 0) ∧
    ((ramp 64).length = smallSentinel.maxPacket ∧ smallSentinel.termMode = .sentinel ∧ 6 < ceilDiv 64 10) := by decide
theorem witness_SendResult :
    (65535 < 65536) ∧ (linked 0#16).cfg.maxPacket < 65 ∧
    (64 ≤ quiet.cfg.maxPacket ∧ quiet.chanEn = false) ∧
    (64 ≤ (sending 0#17).cfg.maxPacket ∧ (sending 0#17).chanEn = true ∧ (sending 0#17).txState = .sending) ∧
    (let s := { linked 0#16 with poolAvail := false }
     64 ≤ s.cfg.maxPacket ∧ s.chanEn = true ∧ s.poolAvail = false) ∧
    (64 ≤ (linked 0#16).cfg.maxPacket ∧ (linked 0#16).chanEn = true ∧ (linked 0#16).txState = .idle ∧
      (linked 0#16).poolAvail = true) := by decide
theorem witness_WrdoneResult :
    quiet.txState = .idle ∧
    ((sending 2#17).txState = .sending ∧ (sending 2#17).txIdx.toNat + 1 = (sending 2#17).txNblobs.toNat) ∧
    ((sending 1#17).txState = .sending ∧ (sending 1#17).txIdx.toNat + 1 ≠ (sending 1#17).txNblobs.toNat) := by decide
theorem witness_UnabortedSendWritesItsWireImage :
    64 ≤ (linked 0#16).cfg.maxPacket ∧ (linked 0#16).chanEn = true ∧ (linked 0#16).txState = .idle ∧
      (linked 0#16).poolAvail = true := by decide
theorem witness_SendEndsWithExactlyOneReport :
    ((sending 2#17).txState = .sending ∧ Instr.wrdone ≠ .reset ∧
      (next? (exec .wrdone (sending 2#17))).map (·.txState) = some .idle) ∧
    ((sending 0#17).txState = .sending ∧ (∀ len, Instr.contact ≠ .send len) ∧
      (next? (exec .contact (sending 0#17))).map (·.txState) = some .sending) :=
  ⟨by decide, by decide, (fun _ h => by cases h), by decide⟩
theorem witness_RxlenResult : (65535 < 65536) ∧ quiet.cfg.maxPacket < 65 ∧ 64 ≤ quiet.cfg.maxPacket := by decide
theorem witness_RxbDropsBytes :
    quiet.chanEn = false ∧
    ({ linked 5#16 with rxState := .fault } : State).chanEn = true ∧
      ({ linked 5#16 with rxState := .fault } : State).rxState = .fault := by decide

/-- The second header byte due, with `n` bytes of the packet already appended. -/
def headerDue (p : Params) (n : Nat) : State :=
  { linked 15#16 with cfg := p, rxBusy := true, rxBlob := [0x05#8], rxPkt := ramp n }

theorem witness_HeaderByteResult :
    (let s := { linked 5#16 with poolAvail := false }
     s.chanEn = true ∧ s.rxState = .expectHeader ∧ s.rxBusy = false ∧ s.poolAvail = false) ∧
    ((linked 5#16).poolAvail = true ∧ ((linked 5#16).rxBlob ++ [0x05#8]).length ≠ 2) ∧
    ((headerDue small 11).rxBusy = true ∧ ((headerDue small 11).rxBlob ++ [0x00#8]).length = 2 ∧
      (headerDue small 11).cfg.termMode = .apriori ∧
      (headerDue small 11).rxTotal.toNat < (headerDue small 11).rxPkt.length + decodeLen .little [0x05#8, 0x00#8]) ∧
    ((headerDue smallSentinel 60).cfg.termMode = .sentinel ∧ (headerDue smallSentinel 60).cfg.maxPacket <
      (headerDue smallSentinel 60).rxPkt.length + decodeLen .little [0x05#8, 0x00#8]) ∧
    ((headerDue small 0).cfg.maxBlobPayload < decodeLen .little [0x05#8, 0x01#8]) ∧
    ((headerDue small 10).rxBusy = true ∧
      ¬((headerDue small 10).cfg.maxBlobPayload < decodeLen .little [0x05#8, 0x00#8] ∨
        ((headerDue small 10).cfg.termMode = .apriori ∧
          (headerDue small 10).rxTotal.toNat < (headerDue small 10).rxPkt.length + decodeLen .little [0x05#8, 0x00#8]) ∨
        ((headerDue small 10).cfg.termMode = .sentinel ∧
          (headerDue small 10).cfg.maxPacket <
            (headerDue small 10).rxPkt.length + decodeLen .little [0x05#8, 0x00#8]))) := by decide
theorem witness_BodyByteResult :
    (let s := { lastByteDue with rxRemaining := 2#17 }
     s.chanEn = true ∧ s.rxState = .expectPayload ∧ s.rxRemaining ≠ 1#17) ∧
    (lastByteDue.chanEn = true ∧ lastByteDue.rxState = .expectPayload ∧ lastByteDue.rxRemaining = 1#17) := by decide

/-- The last byte due is the one that makes the CRC right. -/
def lastByteRight (b : Byte) (s : State) : Prop :=
  let blob := s.rxBlob ++ [b]
  let length := decodeLen s.cfg.wireEndian (blob.take 2)
  s.chanEn = true ∧ s.rxState = .expectPayload ∧ s.rxRemaining = 1#17 ∧
    crc32 s.cfg.crcCfg (blob.take (2 + length)) = decodeCrc s.cfg.wireEndian ((blob.drop (2 + length)).take 4)

theorem witness_ValidBlobResult :
    (lastByteRight 0xFE#8 lastByteDue ∧ lastByteDue.cfg.termMode = .apriori ∧
      (lastByteDue.rxPkt ++ ramp 5).length = lastByteDue.rxTotal.toNat) ∧
    (lastByteRight 0x41#8 sentinelDue ∧ sentinelDue.cfg.termMode = .sentinel ∧
      decodeLen sentinelDue.cfg.wireEndian (sentinelDue.rxBlob.take 2) = 0) ∧
    (lastByteRight 0xFE#8 { lastByteDue with rxTotal := 6#16 } ∧ (lastByteDue.rxPkt ++ ramp 5).length ≠ 6) := by
  refine ⟨⟨?_, by decide⟩, ⟨?_, by decide⟩, ?_, by decide⟩ <;> unfold lastByteRight <;> decide +kernel

theorem witness_CrcMismatchResult :
    (¬lastByteRight 0x7E#8 { lastByteDue with crcFaultCnt := 1 } ∧ 1 + 1 < small.crcFaultLimit) ∧
    (¬lastByteRight 0x7E#8 { lastByteDue with crcFaultCnt := 2 } ∧ small.crcFaultLimit ≤ 2 + 1 ∧
      lastByteDue.txState = .idle) ∧
    (let s := { sending 0#17 with rxState := .expectPayload, rxBusy := true, rxBlob := helloStart, rxRemaining := 1#17,
                                  crcFaultCnt := 2 }
     s.chanEn = true ∧ s.rxState = .expectPayload ∧ s.rxRemaining = 1#17 ∧ ¬lastByteRight 0x7E#8 s ∧
      s.cfg.crcFaultLimit ≤ s.crcFaultCnt + 1 ∧ s.txState = .sending) := by
  unfold lastByteRight
  decide +kernel

theorem witness_ChangedTrailerIsNeverDelivered :
    lastByteDue.chanEn = true ∧ lastByteDue.rxState = .expectPayload ∧ lastByteDue.rxRemaining = 1#17 ∧
    lastByteDue.rxBlob ++ [0x7E#8] =
      (encodeLen .little 5 ++ bytes [0x48, 0x65, 0x6C, 0x6C, 0x6F]) ++ bytes [0x46, 0x8E, 0xA7, 0x7E] ∧
    bytes [0x46, 0x8E, 0xA7, 0x7E] ≠
      encodeCrc .little (crc32 .isoHdlc (encodeLen .little 5 ++ bytes [0x48, 0x65, 0x6C, 0x6C, 0x6F])) := by
  decide +kernel

theorem witness_SegmentedPacketIsReassembled :
    (Inv (linked 64#16) ∧ (ramp 64).length ≤ (linked 64#16).cfg.maxPacket ∧ (linked 64#16).chanEn = true ∧
      (linked 64#16).rxState = .expectHeader ∧ (linked 64#16).rxBusy = false ∧ (linked 64#16).poolAvail = true ∧
      ((linked 64#16).cfg.termMode = .apriori → (linked 64#16).rxTotal.toNat = (ramp 64).length)) ∧
    (let s := { linked 0#16 with cfg := smallSentinel }
     Inv s ∧ ([] : List Byte).length ≤ s.cfg.maxPacket ∧ s.chanEn = true ∧ s.rxState = .expectHeader ∧
      s.rxBusy = false ∧ s.poolAvail = true ∧ (s.cfg.termMode = .apriori → s.rxTotal.toNat = ([] : List Byte).length)) := by
  refine ⟨⟨inv_linked, by decide⟩, ?_, by decide⟩
  constructor <;> decide

theorem witness_ReassemblyEndsWithExactlyOneReport :
    Inv { lastByteDue with crcFaultCnt := 2 } ∧ lastByteDue.rxBusy = true ∧
    (next? (exec .txnend { lastByteDue with crcFaultCnt := 2 })).map (·.rxBusy) = some false ∧ Instr.txnend ≠ .reset :=
  ⟨inv_lastByteDue, by decide, by decide, by decide⟩

theorem witness_TransactionEndResult :
    (quiet.txState = .idle ∧ quiet.rxBusy = false) ∧ (lastByteDue.txState = .idle ∧ lastByteDue.rxBusy = true) ∧
    ((sending 0#17).txState = .sending ∧ (sending 0#17).rxBusy = false) ∧
    (let s := { sending 0#17 with rxBusy := true }
     s.txState = .sending ∧ s.rxBusy = true) := by decide
theorem witness_SecondBoundaryChangesNothing : Inv { sending 2#17 with rxBusy := true } := inv_sending

/-- For `ContactResult`, `NocontactResult`, `PresentResult`, `OrientResult` and `DiscdoneResult`: each connector state. -/
theorem witness_ConnectorOperationResults :
    quiet.connState = .idle ∧ detecting.connState = .detecting ∧ negotiating.connState = .negotiating ∧
    (linked 0#16).connState = .connected ∧ tearingDown.connState = .disconnecting := by decide
theorem witness_TmodetResult :
    (let s := { detecting with cfg := { small with detectRetryMax := none } }
     s.connState = .detecting ∧ s.tmr = .det ∧ s.cfg.detectRetryMax = none) ∧
    (let s := { detecting with retryCnt := 1 }
     s.connState = .detecting ∧ s.tmr = .det ∧ s.cfg.detectRetryMax = some 2 ∧ s.retryCnt < 2) ∧
    (let s := { detecting with retryCnt := 2 }
     s.connState = .detecting ∧ s.tmr = .det ∧ s.cfg.detectRetryMax = some 2 ∧ 2 ≤ s.retryCnt) ∧
    negotiating.connState ≠ .detecting ∧ ({ detecting with tmr := .off } : State).tmr ≠ .det := by decide
theorem witness_TmonegResult :
    (negotiating.connState = .negotiating ∧ negotiating.tmr = .neg) ∧ detecting.connState ≠ .negotiating ∧
    ({ negotiating with tmr := .off } : State).tmr ≠ .neg := by decide
theorem witness_DiscResult :
    (sending 0#17).connState = .connected ∧ (sending 0#17).txState = .sending ∧ lastByteDue.connState = .connected ∧
    lastByteDue.rxBusy = true ∧ tearingDown.connState ≠ .connected := by decide
theorem witness_ConnectorTable :
    Inv { detecting with retryCnt := 2 } ∧
    (next? (exec .tmodet { detecting with retryCnt := 2 })).map (·.connState) = some .idle ∧
    Inv { lastByteDue with crcFaultCnt := 2 } ∧
    (next? (exec (.rxb 0x7E#8) { lastByteDue with crcFaultCnt := 2 })).map (·.connState) = some .disconnecting :=
  ⟨inv_detecting, by decide, inv_lastByteDue, by decide +kernel⟩
theorem witness_HandshakeConnects : quiet.connState = .idle := by decide
theorem witness_DetectionGivesUpAfterItsRetries : quiet.connState = .idle ∧ quiet.cfg.detectRetryMax = some 2 := by decide
theorem witness_ContactLossReachesIdle : Inv { sending 2#17 with rxBusy := true } ∧ Inv tearingDown ∧ Inv negotiating :=
  ⟨inv_sending, inv_tearingDown, inv_negotiating⟩
theorem witness_StateCallbackExactlyOnEnteringAndLeaving :
    (Inv negotiating ∧ negotiating.connState ≠ .connected ∧
      (next? (exec (.orient 0#2) negotiating)).map (·.connState) = some .connected) ∧
    (Inv (linked 64#16) ∧ (linked 64#16).connState = .connected ∧
      (next? (exec .disc (linked 64#16))).map (·.connState) = some .disconnecting) ∧
    (Inv quiet ∧ (next? (exec .contact quiet)).map (·.connState) = some .detecting) :=
  ⟨⟨inv_negotiating, by decide⟩, ⟨inv_linked, by decide⟩, inv_quiet, by decide⟩
theorem witness_NothingWrittenOrDeliveredUnlessConnected :
    Inv tearingDown ∧ tearingDown.connState ≠ .connected ∧
    (next? (exec (.send 2) tearingDown)).map (·.out) = some [.cbSendFailed .channelAborted] :=
  ⟨inv_tearingDown, by decide, by decide⟩
theorem witness_LeavingConnectedFreesBothPaths :
    (sending 0#17).connState = .connected ∧
    (next? (exec .nocontact (sending 0#17))).map (·.connState) = some .idle := by decide
theorem witness_LateEventsAfterResetAreHarmless : next? (exec .reset (sending 0#17)) = some quiet := by decide
theorem witness_StepKeepsTheInvariants :
    Inv quiet ∧ (next? (step { quiet with pending := [eventOf .contact] })).map (·.connState) = some .detecting ∧
    Inv { quiet with pending := [eventOf .contact] } := by
  refine ⟨inv_quiet, by decide, ?_⟩
  constructor <;> decide
theorem witness_StepKeepsTxbufFormAndParameters :
    (Memory.wf (withEvent 0x30000001#32 63).txbuf = true ∧ Memory.within 64 (withEvent 0x30000001#32 63).txbuf = true) ∧
    (next? (step (withEvent 0x30000001#32 63))).map (·.txbuf) = some [(63, 0x07#8)] := by decide
theorem witness_ClosedGateIgnoresOrRejects :
    (Inv (linked 64#16) ∧ gateOpen (.send 65) (linked 64#16) = false ∧ gateOpen (.rxlen 65) (linked 64#16) = false ∧
      gateOpen .contact (linked 64#16) = false ∧ gateOpen .wrdone (linked 64#16) = false ∧
      gateOpen .tmodet (linked 64#16) = false) ∧
    (Inv quiet ∧ gateOpen .nocontact quiet = false ∧ gateOpen (.rxb 0#8) quiet = false ∧ gateOpen (.send 0) quiet = false) :=
  ⟨⟨inv_linked, by decide⟩, inv_quiet, by decide⟩
theorem witness_FaultFlagsAreStickyAndSetByTheirOwners :
    (Instr.contact = .contact ∧ quiet.connState = .idle) ∧
    ¬(Instr.contact = .reset ∨ (Instr.contact = .contact ∧ (linked 0#16).connState = .idle)) := by decide
/-- For `FramerOperationsKeepTheConnector`, `SendAndReceivePathsAreIndependent` and `RxbFrame`. -/
theorem witness_PathFrames :
    (next? (exec .txnend (sending 0#17))).map (·.connState) = some .connected ∧
    (next? (exec (.rxb 0xFE#8) { lastByteDue with crcFaultCnt := 2 })).map (·.rxTotal) = some 5#16 ∧
    ¬persistentCrcFault 0xFE#8 { lastByteDue with crcFaultCnt := 2 } ∧
    persistentCrcFault 0x7E#8 { lastByteDue with crcFaultCnt := 2 } := by
  refine ⟨by decide, by decide +kernel, ?_, ?_⟩ <;> unfold persistentCrcFault <;> decide +kernel
theorem witness_ConnectorOperationsKeepTheFramer :
    issuer .contact = .sensor ∧ issuer .tmodet = .timer ∧ Instr.contact ≠ .nocontact ∧ Instr.contact ≠ .disc ∧
    (next? (exec .contact quiet)).map (·.connState) = some .detecting := by decide
theorem witness_OperationsReadOnlyTheBlock :
    (next? (exec .contact quiet)).map (·.out) = some [.probe, .tmrArm .det] ∧ (∀ len, Instr.contact ≠ .send len) :=
  ⟨by decide, fun _ h => by cases h⟩

end Sys2Proof.Tests
end

section
/-! The host's side of the state: the parameters, `TXBUF` and the pending events (rules R6, R38, R43). Every shared procedure
and every operation leaves it as it is; only the step itself changes it, by taking an event with its host stores. -/

namespace Sys2Proof.Machine

/-- What of the state is the host's and no operation writes. -/
def hostSide (s : State) : Params × Memory × List Event := (s.cfg, s.txbuf, s.pending)

theorem hostSide_eq_iff {s t : State} :
    hostSide t = hostSide s ↔ t.cfg = s.cfg ∧ t.txbuf = s.txbuf ∧ t.pending = s.pending := by
  simp [hostSide]

/-! ### The shared procedures -/

@[simp] theorem hostSide_goIdle (s : State) : hostSide (goIdle s) = hostSide s := by
  rw [goIdle_eq]; rfl

@[simp] theorem hostSide_sendCleared (s : State) : hostSide (sendCleared s) = hostSide s := by
  unfold sendCleared; split <;> rfl

@[simp] theorem hostSide_afterLeaving (c : ConnState) (s : State) : hostSide (afterLeaving c s) = hostSide s :=
  hostSide_sendCleared s

@[simp] theorem hostSide_endTransaction (s : State) : hostSide (endTransaction s) = hostSide s := by
  rw [endTransaction_eq]; exact hostSide_sendCleared s

/-! ### The operations -/

theorem hostSide_sendPacket (len : Nat) (s : State) : hostSide (sendPacket len s) = hostSide s := by
  unfold sendPacket
  split
  · rfl
  · split
    · rfl
    · split <;> rfl

theorem hostSide_setExpectedLength (total : Nat) (s : State) : hostSide (setExpectedLength total s) = hostSide s := by
  unfold setExpectedLength; split <;> rfl

theorem hostSide_disconnect (s : State) : hostSide (disconnect s) = hostSide s := by
  rw [disconnect_eq]; split
  · exact hostSide_afterLeaving _ s
  · rfl

theorem hostSide_receiveByte (b : Byte) (s : State) : hostSide (receiveByte b s) = hostSide s := by
  rcases receiveByte_cases b s with
    ⟨h, -⟩ | ⟨-, -, ⟨h, -⟩ | h | h | h⟩ | ⟨-, -, ⟨-, h | h | ⟨pkt, h | h⟩⟩ | ⟨-, h⟩⟩
  case inr.inr.inr => exact (congrArg hostSide h).trans (hostSide_afterLeaving _ _)
  all_goals exact (congrArg hostSide h).trans rfl

theorem hostSide_writeDone (s : State) : hostSide (writeDone s) = hostSide s := by
  unfold writeDone
  split
  · dsimp only; split <;> rfl
  · rfl

theorem hostSide_contactMade (s : State) : hostSide (contactMade s) = hostSide s := by
  unfold contactMade; dsimp only; split <;> rfl

theorem hostSide_contactLost (s : State) : hostSide (contactLost s) = hostSide s := by
  unfold contactLost
  dsimp only
  split
  case h_1 => rfl
  case h_4 => rw [hostSide_goIdle, leaveConnected_eq, hostSide_afterLeaving]; rfl
  all_goals rw [hostSide_goIdle]; rfl

theorem hostSide_partnerPresent (s : State) : hostSide (partnerPresent s) = hostSide s := by
  unfold partnerPresent; split <;> rfl

theorem hostSide_orientationFound (o : Orientation) (s : State) : hostSide (orientationFound o s) = hostSide s := by
  unfold orientationFound; split <;> rfl

theorem hostSide_detectTimeout (s : State) : hostSide (detectTimeout s) = hostSide s := by
  unfold detectTimeout
  split
  · dsimp only
    split
    · rfl
    · split
      · rfl
      · rw [hostSide_goIdle]; rfl
  · rfl

theorem hostSide_negotiateTimeout (s : State) : hostSide (negotiateTimeout s) = hostSide s := by
  unfold negotiateTimeout; split
  · rw [hostSide_goIdle]; rfl
  · rfl

theorem hostSide_teardownDone (s : State) : hostSide (teardownDone s) = hostSide s := by
  unfold teardownDone; split
  · exact hostSide_goIdle s
  · rfl

/-- Every operation answers a next state and keeps the host's side. -/
theorem exec_completes_keeping_hostSide (i : Instr) (s : State) :
    ∃ t, exec i s = .next t ∧ hostSide t = hostSide s := by
  cases i with
  | send len => exact ⟨_, exec_send len s, hostSide_sendPacket len s⟩
  | rxlen total => exact ⟨_, exec_rxlen total s, hostSide_setExpectedLength total s⟩
  | disc => exact ⟨_, exec_disc s, hostSide_disconnect s⟩
  | rxb b => exact ⟨_, exec_rxb b s, hostSide_receiveByte b s⟩
  | wrdone => exact ⟨_, exec_wrdone s, hostSide_writeDone s⟩
  | txnend => exact ⟨_, exec_txnend s, hostSide_endTransaction s⟩
  | chabort => exact ⟨_, exec_chabort s, hostSide_endTransaction s⟩
  | contact => exact ⟨_, exec_contact s, hostSide_contactMade s⟩
  | nocontact => exact ⟨_, exec_nocontact s, hostSide_contactLost s⟩
  | present => exact ⟨_, exec_present s, hostSide_partnerPresent s⟩
  | orient o => exact ⟨_, exec_orient o s, hostSide_orientationFound _ s⟩
  | tmodet => exact ⟨_, exec_tmodet s, hostSide_detectTimeout s⟩
  | tmoneg => exact ⟨_, exec_tmoneg s, hostSide_negotiateTimeout s⟩
  | poolav a => exact ⟨_, exec_poolav a s, rfl⟩
  | discdone => exact ⟨_, exec_discdone s, hostSide_teardownDone s⟩
  | reset => exact ⟨_, exec_reset s, rfl⟩

/-- An operation keeps the host's side. -/
theorem exec_keeps_hostSide {i : Instr} {s t : State} (h : exec i s = .next t) : hostSide t = hostSide s := by
  obtain ⟨u, hu, hk⟩ := exec_completes_keeping_hostSide i s
  obtain rfl : t = u := Host.Outcome.next.inj (h.symm.trans hu)
  exact hk

/-! ### The step -/

/-- The block's own step, with no event pending, keeps the host's side. -/
theorem hostSide_idleStep (s : State) : hostSide (idleStep s) = hostSide s := by
  unfold idleStep
  split
  · dsimp only
    split
    · rw [hostSide_teardownDone]; rfl
    · rfl
  · rfl

/-- A step that answers a next state leaves the parameters, and `TXBUF` is as before or as the host has filled it. -/
theorem step_cfg_txbuf {s t : State} (h : step s = .next t) :
    t.cfg = s.cfg ∧ (t.txbuf = s.txbuf ∨ ∃ cs, hostStores s.cfg.maxPacket cs s.txbuf = .ok t.txbuf) := by
  rcases step_next_cases h with ⟨-, rfl⟩ | ⟨e, rest, m, i, -, hm, -, he⟩
  · obtain ⟨hcfg, htxbuf, -⟩ := hostSide_eq_iff.mp (hostSide_idleStep s)
    exact ⟨hcfg, .inl htxbuf⟩
  · obtain ⟨hcfg, htxbuf, -⟩ := hostSide_eq_iff.mp (exec_keeps_hostSide he)
    exact ⟨hcfg, .inr ⟨e.hostWrites, htxbuf ▸ hm⟩⟩

/-- Settles O53: no operation writes the parameters or `TXBUF`, and the host's stores keep the canonical form. -/
theorem stepKeepsTxbufFormAndParameters : Obligations.StepKeepsTxbufFormAndParameters := by
  intro s t h
  obtain ⟨hcfg, htxbuf⟩ := step_cfg_txbuf h
  refine ⟨hcfg, fun ⟨hwf, hwithin⟩ => ?_⟩
  unfold TxbufCanonical
  rw [hcfg]
  rcases htxbuf with hsame | ⟨cs, hfilled⟩
  · rw [hsame]; exact ⟨hwf, hwithin⟩
  · exact hostStores_keeps hfilled hwf hwithin

end Sys2Proof.Machine
end

section
/-! The step by the parts it is made of: the event it takes, the host's stores it lets land, and the operation it runs. -/

namespace Sys2Proof.Machine

theorem takeEvent_of_pending {s : State} {e : Event} {rest : List Event} (hp : s.pending = e :: rest) :
    takeEvent s = some (e, { s with pending := rest }) := by
  simp [takeEvent, hp]

theorem fillTxbuf_of_hostStores {s : State} {e : Event} {m : Memory}
    (hm : hostStores s.cfg.maxPacket e.hostWrites s.txbuf = .ok m) : fillTxbuf e s = .ok { s with txbuf := m } := by
  simp [fillTxbuf, hm]

/-- A step that finds an event runs the operation its word decodes to, the event taken and `TXBUF` filled. -/
theorem step_of_decoded {s : State} {e : Event} {rest : List Event} {m : Memory} {i : Instr}
    (hp : s.pending = e :: rest) (hm : hostStores s.cfg.maxPacket e.hostWrites s.txbuf = .ok m)
    (hd : decode e.word = .ok i) : step s = exec i { s with pending := rest, txbuf := m } := by
  have hfill := fillTxbuf_of_hostStores (s := { s with pending := rest }) hm
  simp only [step, takeEvent_of_pending hp, hfill, hd]

/-- Settles O5: the two clauses are the step on a pending event, and the same on the event that `withFetchWord` places,
which brings no host stores. -/
theorem stepRunsTheDecodedOperation : Obligations.StepRunsTheDecodedOperation := by
  refine ⟨fun s e rest m i hp hm hd => step_of_decoded hp hm hd, fun s w i hd => ?_⟩
  have hnone : hostStores s.cfg.maxPacket [] s.txbuf = .ok s.txbuf := rfl
  exact step_of_decoded (s := s.withFetchWord 32 w) rfl hnone hd

end Sys2Proof.Machine
end

section
/-! The invariants of rule R39: they hold after reset, and every step keeps them (O51, O52). An update proof names the items
whose registers change and takes the others over as they are. -/

namespace Sys2Proof.Machine

/-! ### What the invariants say in particular states -/

theorem blocksHeld_le_two (s : State) : blocksHeld s ≤ 2 := by
  unfold blocksHeld; split <;> split <;> omega

theorem Inv.chanEn_of_connected {s : State} (h : Inv s) (hc : s.connState = .connected) : s.chanEn = true :=
  h.chanEn_iff.mpr hc

theorem Inv.chanEn_off {s : State} (h : Inv s) (hc : s.connState ≠ .connected) : s.chanEn = false :=
  Bool.eq_false_iff.mpr fun hon => hc (h.chanEn_iff.mp hon)

theorem Inv.connected_off {s : State} (h : Inv s) (hc : s.connState ≠ .connected) : s.connected = false :=
  Bool.eq_false_iff.mpr fun hon => hc (h.connected_iff.mp hon)

theorem Inv.orientation_none {s : State} (h : Inv s) (hc : s.connState ≠ .connected) : s.orientation = .oriNone :=
  not_not.mp fun ho => hc (h.orientation_iff.mp ho)

/-- Outside `DETECTING` and `NEGOTIATING` no timer runs. -/
theorem Inv.tmr_off {s : State} (h : Inv s) (hd : s.connState ≠ .detecting) (hn : s.connState ≠ .negotiating) :
    s.tmr = .off := by
  cases ht : s.tmr with
  | off => rfl
  | det => exact absurd (h.tmr_det.mp ht) hd
  | neg => exact absurd (h.tmr_neg.mp ht) hn

theorem Inv.retryCnt_zero {s : State} (h : Inv s) (hd : s.connState ≠ .detecting) : s.retryCnt = 0 :=
  not_not.mp fun hr => hd (h.retry_detecting hr)

theorem crcFaultLimit_pos (p : Params) : 0 < p.crcFaultLimit := Nat.succ_pos _

theorem orientationOperand_ne_oriNone (o : BitVec 2) : orientationOperand o ≠ .oriNone := by
  revert o; decide

/-! ### Reset -/

theorem inv_resetWith (p : Params) : Inv (State.resetWith p) := by
  constructor <;> simp [State.resetWith, blocksHeld, crcFaultLimit_pos]

theorem txbufCanonical_resetWith (p : Params) : TxbufCanonical (State.resetWith p) := ⟨reset_wf p, rfl⟩

/-- Settles O51: under any parameters, so also under the machine's own. -/
theorem resetMeetsTheInvariants : Obligations.ResetMeetsTheInvariants :=
  ⟨fun p => ⟨inv_resetWith p, txbufCanonical_resetWith p⟩, inv_resetWith _, txbufCanonical_resetWith _⟩

theorem inv_resetBlock (s : State) : Inv (resetBlock s) := { inv_resetWith s.cfg with }

/-! ### Either path at rest -/

/-- A send path that gives up its packet, whatever the connector does. -/
theorem Inv.sendIdle {s : State} (h : Inv s) :
    Inv { s with txState := .idle, txPkt := [], txIdx := 0#17, txNblobs := 0#17 } :=
  { h with
    sending_chanEn := nofun
    tx_idle := fun _ => ⟨rfl, rfl, rfl⟩
    tx_sending := nofun
    blocks_le := blocksHeld_le_two _ }

/-- A receive path that gives up what it has and waits for a header, whatever the connector does. -/
theorem Inv.receiveIdle {s : State} (h : Inv s) :
    Inv { s with rxState := .expectHeader, rxBlob := [], rxRemaining := 0#17, rxPkt := [], rxBusy := false } :=
  { h with
    channel_off := fun hoff =>
      have ⟨_, _, _, _, hcount⟩ := h.channel_off hoff
      ⟨rfl, rfl, rfl, rfl, hcount⟩
    rx_fault := nofun
    rx_header := fun _ => ⟨Nat.zero_le 1, rfl⟩
    rx_payload := nofun
    rx_held := fun hheld => by simp at hheld
    rxPkt_le := Nat.zero_le _
    blocks_le := blocksHeld_le_two _ }

/-! ### The send path -/

theorem inv_sendPacket {s : State} (h : Inv s) (len : Nat) : Inv (sendPacket len s) := by
  unfold sendPacket
  split
  case isTrue => exact { h with }
  case isFalse hlen =>
    split
    case isTrue => exact { h with }
    case isFalse hon =>
      split
      case isTrue => exact { h with }
      case isFalse =>
        have hfits : len ≤ s.cfg.maxPacket := Nat.le_of_not_lt hlen
        obtain ⟨hone, hcount⟩ := nBlobs_bounds s.cfg hfits
        exact { h with
          sending_chanEn := fun _ => Bool.eq_true_of_not_eq_false hon
          tx_idle := nofun
          tx_sending := fun _ => by
            simp [acceptSend, sendOperand]
            omega
          blocks_le := blocksHeld_le_two _ }

theorem inv_writeDone {s : State} (h : Inv s) : Inv (writeDone s) := by
  unfold writeDone
  split
  case isFalse => exact h
  case isTrue hs =>
    dsimp only
    split
    case isTrue => exact { h.sendIdle with }
    case isFalse hmore =>
      obtain ⟨hpkt, hcount, hidx⟩ := h.tx_sending hs
      have := s.txNblobs.isLt
      exact { h with
        tx_idle := fun hi => nomatch hs.symm.trans hi
        tx_sending := fun _ => ⟨hpkt, hcount, by simp; omega⟩ }

/-! ### Moves of the connector that keep the link down -/

/-- The connector's registers may take any values that agree with each other, as long as it was not `CONNECTED` and does not
become so. -/
theorem Inv.moveUnlinked {s : State} (h : Inv s) (hs : s.connState ≠ .connected)
    (c : ConnState) (k : Tmr) (r : Nat) (level : Bool) (hc : c ≠ .connected)
    (hdet : k = .det ↔ c = .detecting) (hneg : k = .neg ↔ c = .negotiating) (hr : r ≠ 0 → c = .detecting)
    (hle : ∀ n, s.cfg.detectRetryMax = some n → r ≤ n) (hlevel : c ≠ .idle → level = true) :
    Inv { s with connState := c, tmr := k, retryCnt := r, contact := level } :=
  { h with
    connected_iff := by simp [h.connected_off hs, hc]
    chanEn_iff := by simp [h.chanEn_off hs, hc]
    orientation_iff := by simp [h.orientation_none hs, hc]
    tmr_det := hdet
    tmr_neg := hneg
    retry_detecting := hr
    retry_le := hle
    contact_on := hlevel }

/-! ### Leaving `CONNECTED` and going idle -/

/-- Where an idle send path is empty (item j), giving up the send empties it in every case. -/
theorem sendCleared_eq {s : State} (h : s.txState = .idle → s.txPkt = [] ∧ s.txIdx = 0#17 ∧ s.txNblobs = 0#17) :
    sendCleared s = { s with txState := .idle, txPkt := [], txIdx := 0#17, txNblobs := 0#17 } := by
  unfold sendCleared
  cases hs : s.txState with
  | sending => rfl
  | idle =>
    have hempty := h hs
    obtain ⟨⟩ := s
    simp_all

/-- The registers that leaving `CONNECTED` for `DISCONNECTING` writes, rule R196. -/
theorem Inv.left {s : State} (h : Inv s) (hc : s.connState = .connected) :
    Inv { s with
      connState := .disconnecting, chanEn := false, connected := false, orientation := .oriNone,
      txState := .idle, txPkt := [], txIdx := 0#17, txNblobs := 0#17,
      rxState := .expectHeader, rxBlob := [], rxRemaining := 0#17, rxPkt := [], rxBusy := false, crcFaultCnt := 0 } :=
  have htmr : s.tmr = .off := h.tmr_off (by simp [hc]) (by simp [hc])
  { h.sendIdle.receiveIdle with
    connected_iff := by simp
    chanEn_iff := by simp
    orientation_iff := by simp
    sending_chanEn := nofun
    channel_off := fun _ => ⟨rfl, rfl, rfl, rfl, rfl⟩
    tmr_det := by simp [htmr]
    tmr_neg := by simp [htmr]
    retry_detecting := fun hr => absurd (h.retryCnt_zero (by simp [hc])) hr
    crcFaultCnt_lt := crcFaultLimit_pos _
    contact_on := fun _ => h.contact_on (by simp [hc]) }

theorem inv_disconnect {s : State} (h : Inv s) : Inv (disconnect s) := by
  rw [disconnect_eq]
  split
  case isFalse => exact h
  case isTrue hc =>
    rw [afterLeaving, sendCleared_eq h.tx_idle]
    exact { h.left hc with }

/-- Going idle, rule R194; in `IDLE` either level of the contact is allowed. -/
theorem Inv.idle {s : State} (h : Inv s) (hc : s.connState ≠ .connected) (level : Bool) :
    Inv { s with connState := .idle, tmr := .off, retryCnt := 0, contact := level } :=
  h.moveUnlinked hc .idle .off 0 level nofun (by simp) (by simp) (absurd rfl) (fun _ _ => Nat.zero_le _) (absurd rfl)

theorem inv_goIdle {s : State} (h : Inv s) (hc : s.connState ≠ .connected) : Inv (goIdle s) := by
  rw [goIdle_eq]
  exact { h.idle hc s.contact with }

theorem inv_teardownDone {s : State} (h : Inv s) : Inv (teardownDone s) := by
  unfold teardownDone
  split
  case isFalse => exact h
  case isTrue hc => exact inv_goIdle h (by simp [hc])

theorem inv_contactLost {s : State} (h : Inv s) : Inv (contactLost s) := by
  unfold contactLost
  dsimp only
  split
  case h_1 hc => exact { h with contact_on := fun hi => absurd hc hi }
  case h_4 hc =>
    rw [goIdle_eq, leaveConnected_eq, afterLeaving, sendCleared_eq]
    · exact { (h.left hc).idle nofun false with }
    · exact h.tx_idle
  case h_2 hc | h_3 hc | h_5 hc =>
    rw [goIdle_eq]
    exact { h.idle (by simp [hc]) false with }

/-! ### Connecting -/

theorem inv_contactMade {s : State} (h : Inv s) : Inv (contactMade s) := by
  unfold contactMade
  dsimp only
  split
  case isFalse => exact { h with contact_on := fun _ => rfl }
  case isTrue hc =>
    have hdetecting := h.moveUnlinked (by simp [hc]) .detecting .det 0 true nofun (by simp) (by simp)
      (fun _ => rfl) (fun _ _ => Nat.zero_le _) (fun _ => rfl)
    exact { hdetecting with }

theorem inv_partnerPresent {s : State} (h : Inv s) : Inv (partnerPresent s) := by
  unfold partnerPresent
  split
  case isFalse => exact h
  case isTrue hc =>
    have hnegotiating := h.moveUnlinked (by simp [hc]) .negotiating .neg 0 s.contact nofun (by simp) (by simp)
      (absurd rfl) (fun _ _ => Nat.zero_le _) (fun _ => h.contact_on (by simp [hc]))
    exact { hnegotiating with }

theorem inv_orientationFound {s : State} (h : Inv s) {o : Orientation} (ho : o ≠ .oriNone) :
    Inv (orientationFound o s) := by
  unfold orientationFound
  split
  case isFalse => exact h
  case isTrue hc =>
    exact { h.receiveIdle with
      connected_iff := by simp
      chanEn_iff := by simp
      orientation_iff := by simp [ho]
      sending_chanEn := fun _ => rfl
      channel_off := nofun
      tmr_det := by simp
      tmr_neg := by simp
      retry_detecting := fun hr => absurd (h.retryCnt_zero (by simp [hc])) hr
      crcFaultCnt_lt := crcFaultLimit_pos _
      contact_on := fun _ => h.contact_on (by simp [hc]) }

/-- Another probe is allowed while the retry counter is within its limit. -/
theorem inv_probeAgain {s : State} (h : Inv s) (hc : s.connState = .detecting) {r : Nat}
    (hr : ∀ n, s.cfg.detectRetryMax = some n → r ≤ n) : Inv (probeAgain { s with tmr := .off, retryCnt := r }) :=
  have hagain := h.moveUnlinked (by simp [hc]) s.connState .det r s.contact (by simp [hc]) (by simp [hc]) (by simp [hc])
    (fun _ => hc) hr h.contact_on
  { hagain with }

theorem inv_detectTimeout {s : State} (h : Inv s) : Inv (detectTimeout s) := by
  unfold detectTimeout
  split
  case isFalse => exact h
  case isTrue hdue =>
    obtain ⟨hc, -⟩ := hdue
    dsimp only
    split
    case h_1 => exact inv_probeAgain h hc h.retry_le
    case h_2 n hn =>
      split
      case isTrue hlt =>
        have hnext : ∀ m, s.cfg.detectRetryMax = some m → s.retryCnt + 1 ≤ m := fun m hm =>
          Option.some.inj (hn.symm.trans hm) ▸ hlt
        exact inv_probeAgain h hc hnext
      case isFalse =>
        rw [goIdle_eq]
        exact { h.idle (by simp [hc]) s.contact with }

theorem inv_negotiateTimeout {s : State} (h : Inv s) : Inv (negotiateTimeout s) := by
  unfold negotiateTimeout
  split
  case isFalse => exact h
  case isTrue hdue =>
    rw [goIdle_eq]
    exact { h.idle (by simp [hdue.1]) s.contact with }

/-! ### The receive path -/

theorem inv_setExpectedLength {s : State} (h : Inv s) (total : Nat) : Inv (setExpectedLength total s) := by
  unfold setExpectedLength
  split
  case isTrue => exact { h with }
  case isFalse hfits =>
    have := maxPacket_le s.cfg
    exact { h with rxTotal_le := by simp; omega }

theorem inv_afterReceiveFault {s : State} (h : Inv s) (hon : s.chanEn = true) (k : ErrorKind) :
    Inv (afterReceiveFault k s) :=
  { h with
    channel_off := fun hoff => nomatch hon.symm.trans hoff
    rx_fault := fun _ => ⟨rfl, rfl, rfl, rfl⟩
    rx_header := nofun
    rx_payload := nofun
    rx_held := fun hheld => by simp [afterReceiveFault] at hheld
    rxPkt_le := Nat.zero_le _
    blocks_le := blocksHeld_le_two _ }

/-- While the channel is on, any count of CRC faults below the limit is allowed. -/
theorem Inv.withCrcFaultCnt {s : State} (h : Inv s) (hon : s.chanEn = true) {n : Nat} (hn : n < s.cfg.crcFaultLimit) :
    Inv { s with crcFaultCnt := n } :=
  { h with
    channel_off := fun hoff => nomatch hon.symm.trans hoff
    crcFaultCnt_lt := hn }

/-- The Block that the first header byte of a packet takes, rule R143. -/
theorem Inv.withBlock {s : State} (h : Inv s) (hon : s.chanEn = true) (hs : s.rxState = .expectHeader) :
    Inv { s with rxBusy := true } :=
  { h with
    channel_off := fun hoff => nomatch hon.symm.trans hoff
    rx_fault := fun hf => nomatch hs.symm.trans hf
    rx_payload := fun hp => nomatch hs.symm.trans hp
    rx_held := fun _ => rfl
    blocks_le := blocksHeld_le_two _ }

/-- A length that passes the header tests of rule R144 leaves room in the blob and in the packet. -/
theorem room_of_not_lengthRejected {s : State} {n : Nat} (hr : ¬lengthRejected s n = true)
    (ht : s.rxTotal.toNat ≤ s.cfg.maxPacket) :
    n ≤ s.cfg.maxBlobPayload ∧ s.rxPkt.length + n ≤ s.cfg.maxPacket := by
  rw [lengthRejected_iff] at hr
  cases hm : s.cfg.termMode <;> simp [hm] at hr <;> omega

/-- A complete header that passes the tests of rule R144 makes the path wait for payload and trailer. -/
theorem Inv.awaitPayload {s : State} (h : Inv s) (hon : s.chanEn = true) (hb : s.rxBusy = true) {blob : List Byte}
    (htwo : blob.length = 2) (hcap : decodeLen s.cfg.wireEndian (blob.take 2) ≤ s.cfg.maxBlobPayload)
    (hroom : s.rxPkt.length + decodeLen s.cfg.wireEndian (blob.take 2) ≤ s.cfg.maxPacket) :
    Inv { s with rxBlob := blob, rxState := .expectPayload,
                 rxRemaining := BitVec.ofNat 17 (decodeLen s.cfg.wireEndian (blob.take 2) + 4) } :=
  have := cap_le s.cfg
  { h with
    channel_off := fun hoff => nomatch hon.symm.trans hoff
    rx_fault := nofun
    rx_header := nofun
    rx_payload := fun _ => by
      refine ⟨htwo.ge, hb, hcap, ?_, ?_, ?_, hroom⟩ <;> simp only [BitVec.toNat_ofNat] <;> omega
    rx_held := fun _ => hb }

/-- A header byte that finds a Block held, rule R144. -/
theorem inv_headerStore {s : State} (h : Inv s) (hon : s.chanEn = true) (hs : s.rxState = .expectHeader)
    (hb : s.rxBusy = true) (b : Byte) : Inv (headerStore b s) := by
  obtain ⟨hshort, hrem⟩ := h.rx_header hs
  unfold headerStore
  dsimp only
  split
  case isTrue htwo =>
    unfold headerComplete
    simp only [seqRead, List.drop_zero]
    split
    case isTrue =>
      rw [rxFault_eq (by decide)]
      exact { inv_afterReceiveFault h hon .lengthOutOfRange with }
    case isFalse hok =>
      obtain ⟨hcap, hroom⟩ := room_of_not_lengthRejected hok h.rxTotal_le
      exact h.awaitPayload hon hb htwo hcap hroom
  case isFalse hone =>
    have hlen : (s.rxBlob ++ [b]).length = s.rxBlob.length + 1 := List.length_append
    exact { h with
      channel_off := fun hoff => nomatch hon.symm.trans hoff
      rx_fault := fun hf => nomatch hs.symm.trans hf
      rx_header := fun _ => ⟨by simp only [hlen] at hone ⊢; omega, hrem⟩
      rx_payload := fun hp => nomatch hs.symm.trans hp
      rx_held := fun _ => hb }

theorem inv_headerByte {s : State} (h : Inv s) (hon : s.chanEn = true) (hs : s.rxState = .expectHeader) (b : Byte) :
    Inv (headerByte b s) := by
  by_cases hblock : s.rxBusy = true ∨ s.poolAvail = true
  · rw [headerByte_store b hblock]
    exact inv_headerStore (h.withBlock hon hs) hon hs rfl b
  · simp only [not_or, Bool.not_eq_true] at hblock
    obtain ⟨hbusy, hpool⟩ := hblock
    rw [headerByte_noBlock b hbusy hpool]
    exact inv_afterReceiveFault h hon .outOfMemory

/-- A payload or trailer byte that is not the last, rule R145. -/
theorem inv_bodyByte_more {s : State} (h : Inv s) (hon : s.chanEn = true) (hs : s.rxState = .expectPayload)
    (hr : s.rxRemaining ≠ 1#17) (b : Byte) : Inv (bodyByte b s) := by
  obtain ⟨htwo, hb, hcap, hpos, hle, hsum, hroom⟩ := h.rx_payload hs
  have hheader : (s.rxBlob ++ [b]).take 2 = s.rxBlob.take 2 := List.take_append_of_le_length htwo
  have hdec : (s.rxRemaining - 1#17).toNat = s.rxRemaining.toNat - 1 := by
    have := s.rxRemaining.isLt
    simp only [BitVec.toNat_sub, BitVec.toNat_ofNat]
    omega
  have hne : s.rxRemaining.toNat ≠ 1 := fun h1 => hr (BitVec.eq_of_toNat_eq h1)
  rw [bodyByte_more b hr]
  exact { h with
    channel_off := fun hoff => nomatch hon.symm.trans hoff
    rx_fault := fun hf => nomatch hs.symm.trans hf
    rx_header := fun hh => nomatch hs.symm.trans hh
    rx_payload := fun _ => by
      simp only [hheader, hdec, List.length_append, List.length_singleton]
      refine ⟨?_, hb, hcap, ?_, ?_, ?_, hroom⟩ <;> omega
    rx_held := fun _ => hb }

/-- A packet grown by the payload of a valid blob waits for the next header, as long as it fits. -/
theorem Inv.withPayload {s : State} (h : Inv s) (hon : s.chanEn = true) (hb : s.rxBusy = true) {pkt : List Byte}
    (hpkt : pkt.length ≤ s.cfg.maxPacket) :
    Inv { s with crcFaultCnt := 0, rxBlob := [], rxRemaining := 0#17, rxPkt := pkt, rxState := .expectHeader } :=
  { h with
    channel_off := fun hoff => nomatch hon.symm.trans hoff
    rx_fault := nofun
    rx_header := fun _ => ⟨Nat.zero_le 1, rfl⟩
    rx_payload := nofun
    rx_held := fun _ => hb
    rxPkt_le := hpkt
    crcFaultCnt_lt := crcFaultLimit_pos _ }

/-- The last byte of a valid blob, rule R147: the payload is appended, and a complete packet frees the Block. -/
theorem inv_acceptBlob {s : State} (h : Inv s) (hon : s.chanEn = true) (hs : s.rxState = .expectPayload) (b : Byte) :
    Inv (acceptBlob { s with rxBlob := s.rxBlob ++ [b], rxRemaining := 0#17 }) := by
  obtain ⟨htwo, hb, -, -, -, -, hroom⟩ := h.rx_payload hs
  have hheader : seqRead (s.rxBlob ++ [b]) 0 2 = s.rxBlob.take 2 := List.take_append_of_le_length htwo
  unfold acceptBlob
  simp only [hheader]
  have hpkt (n : Nat) (hn : s.rxPkt.length + n ≤ s.cfg.maxPacket) :
      (s.rxPkt ++ seqRead (s.rxBlob ++ [b]) 2 n).length ≤ s.cfg.maxPacket := by
    have := List.length_take_le n ((s.rxBlob ++ [b]).drop 2)
    rw [List.length_append, seqRead]
    omega
  have hgrown := h.withPayload hon hb (hpkt _ hroom)
  split
  · exact { hgrown.receiveIdle with }
  · exact hgrown

/-- A receive fault loses the blob, so it does not matter which bytes of it have come. -/
theorem rxFault_forgets_blob (k : ErrorKind) (s : State) (blob : List Byte) (r : BitVec 17) :
    rxFault k { s with rxBlob := blob, rxRemaining := r } = rxFault k s := rfl

/-- A CRC fault, rule R149: the path faults, at the limit the connector leaves `CONNECTED`. -/
theorem inv_rxFault_crc {s : State} (h : Inv s) (hc : s.connState = .connected) : Inv (rxFault .crcMismatch s) := by
  have hon := h.chanEn_of_connected hc
  rcases Nat.lt_or_ge (s.crcFaultCnt + 1) s.cfg.crcFaultLimit with hbelow | hlimit
  · rw [rxFault_crc_below hbelow]
    exact { (inv_afterReceiveFault h hon .crcMismatch).withCrcFaultCnt hon hbelow with }
  · rw [rxFault_crc_limit hlimit, afterLeaving, sendCleared_eq]
    · exact { h.left hc with }
    · exact h.tx_idle

theorem inv_receiveByte {s : State} (h : Inv s) (b : Byte) : Inv (receiveByte b s) := by
  by_cases hdrop : s.chanEn = false ∨ s.rxState = .fault
  · rw [receiveByte_dropped b hdrop]; exact h
  obtain ⟨hoff, hfault⟩ := not_or.mp hdrop
  have hon : s.chanEn = true := Bool.eq_true_of_not_eq_false hoff
  cases hs : s.rxState with
  | fault => exact absurd hs hfault
  | expectHeader =>
    rw [receiveByte_header b hon hs]
    exact inv_headerByte h hon hs b
  | expectPayload =>
    rw [receiveByte_body b hon hs]
    by_cases hlast : s.rxRemaining = 1#17
    · rw [bodyByte_last b hlast, blobComplete]
      split
      · exact inv_acceptBlob h hon hs b
      · rw [rxFault_forgets_blob]
        exact inv_rxFault_crc h (h.chanEn_iff.mp hon)
    · exact inv_bodyByte_more h hon hs hlast b

/-! ### The transaction boundary -/

theorem inv_endTransaction {s : State} (h : Inv s) : Inv (endTransaction s) := by
  rw [endTransaction_eq, sendCleared_eq h.tx_idle]
  exact { h.sendIdle.receiveIdle with }

/-! ### The step -/

/-- Every operation keeps the invariants. -/
theorem inv_exec {i : Instr} {s t : State} (h : Inv s) (he : exec i s = .next t) : Inv t := by
  cases i with
  | send len => cases he; exact inv_sendPacket h len
  | rxlen total => cases he; exact inv_setExpectedLength h total
  | disc => cases he; exact inv_disconnect h
  | rxb b => cases he; exact inv_receiveByte h b
  | wrdone => cases he; exact inv_writeDone h
  | txnend | chabort => cases he; exact inv_endTransaction h
  | contact => cases he; exact inv_contactMade h
  | nocontact => cases he; exact inv_contactLost h
  | present => cases he; exact inv_partnerPresent h
  | orient o => cases he; exact inv_orientationFound h (orientationOperand_ne_oriNone o)
  | tmodet => cases he; exact inv_detectTimeout h
  | tmoneg => cases he; exact inv_negotiateTimeout h
  | poolav a => cases he; exact { h with }
  | discdone => cases he; exact inv_teardownDone h
  | reset => cases he; exact inv_resetBlock s

/-- The block's own step, with no event pending, keeps the invariants. -/
theorem inv_idleStep {s : State} (h : Inv s) : Inv (idleStep s) := by
  have hticked : Inv { s with idleSteps := s.idleSteps + 1 } := { h with }
  unfold idleStep
  dsimp only
  split
  case isFalse => exact h
  case isTrue =>
    split
    · exact inv_teardownDone hticked
    · exact hticked

/-- Settles O52: with no event the block's own step keeps the invariants, and with one the operation does, after the host's
stores, which no item reads. -/
theorem stepKeepsTheInvariants : Obligations.StepKeepsTheInvariants := by
  intro s t h hstep
  rcases step_next_cases hstep with ⟨-, rfl⟩ | ⟨e, rest, m, i, -, -, -, he⟩
  · exact inv_idleStep h
  · have hfilled : Inv { s with pending := rest, txbuf := m } := { h with }
    exact inv_exec hfilled he

end Sys2Proof.Machine
end

section
/-! The host's stores into `TXBUF` and the step (rules R38, R60): the first store outside stops the machine, and stores
inside leave at each address the last byte stored there. -/

namespace Sys2Proof.Machine

/-- The first store outside the space is the one the error names. -/
theorem hostStores_error_of_find {size : Nat} {cs : List Host.Cell} {c : Host.Cell}
    (h : cs.find? (fun d => decide (size ≤ d.1)) = some c) (m : Memory) : hostStores size cs m = .error c.1 := by
  induction cs generalizing m with
  | nil => cases h
  | cons d cs ih =>
    rw [List.find?_cons] at h
    unfold hostStores
    by_cases hd : size ≤ d.1
    · simp only [hd, decide_true, Option.some.injEq] at h
      rw [if_neg (Nat.not_lt.mpr hd), h]
    · simp only [hd, decide_false] at h
      rw [if_pos (Nat.lt_of_not_le hd), ih h]

/-- A step whose event brings a store outside `TXBUF` faults. -/
theorem step_of_store_outside {s : State} {e : Event} {rest : List Event} {a : Nat} (hp : s.pending = e :: rest)
    (ha : hostStores s.cfg.maxPacket e.hostWrites s.txbuf = .error a) : step s = .fault (.txbufOutOfRange a) := by
  simp [step, takeEvent_of_pending hp, fillTxbuf, ha]

/-- Stores inside the space succeed, keep the canonical form, and the last byte stored at an address is what it reads as. -/
theorem hostStores_inside {size : Nat} {cs : List Host.Cell} {m : Memory} (hwf : Memory.wf m = true)
    (hin : ∀ c ∈ cs, c.1 < size) :
    ∃ m', hostStores size cs m = .ok m' ∧ Memory.wf m' = true ∧
      ∀ a, Memory.read m' a = ((cs.reverse.find? fun c => c.1 == a).map Prod.snd).getD (Memory.read m a) := by
  induction cs generalizing m with
  | nil => exact ⟨m, rfl, hwf, fun a => rfl⟩
  | cons c cs ih =>
    obtain ⟨hc, hcs⟩ := List.forall_mem_cons.mp hin
    obtain ⟨m', hok, hwf', hread⟩ := ih (write_wf c.1 c.2 hwf) hcs
    refine ⟨m', by rw [hostStores, if_pos hc, hok], hwf', fun a => ?_⟩
    rw [hread a, read_write hwf, List.reverse_cons, List.find?_append]
    cases cs.reverse.find? (fun d => d.1 == a) with
    | some d => rfl
    | none =>
      by_cases ha : a = c.1
      · simp [ha]
      · have hne : (c.1 == a) = false := beq_false_of_ne (Ne.symm ha)
        simp [ha, hne]

/-- Settles O7: the event's stores are tried in order, so the first outside is the one that stops the machine; and a store is
read back until a later one replaces it. -/
theorem hostStoresLandInsideTxbufOnly : Obligations.HostStoresLandInsideTxbufOnly := by
  refine ⟨fun s e rest hp ⟨d, hd, hout⟩ => ?_, fun size cs m hwf hin => hostStores_inside hwf hin⟩
  have hsome : (e.hostWrites.find? fun d => decide (s.cfg.maxPacket ≤ d.1)).isSome :=
    List.find?_isSome.mpr ⟨d, hd, decide_eq_true hout⟩
  obtain ⟨c, hfind⟩ := Option.isSome_iff_exists.mp hsome
  have hfirst := List.find?_some hfind
  exact ⟨c, List.mem_of_find?_eq_some hfind, of_decide_eq_true hfirst, hfind,
    step_of_store_outside hp (hostStores_error_of_find hfind s.txbuf)⟩

end Sys2Proof.Machine
end

section
/-! The codes of the registers (rules R22 to R36, R230) and the fault flags (rule R27): an operation either clears them all
or only sets bits, of those that are its own. -/

namespace Sys2Proof.Machine

/-- Settles O50: the codes are the columns of the rules' tables, and a status query shows the registers as they are. -/
theorem registerCodes : Obligations.RegisterCodes := by
  have herror : ∀ k, flagBit (errorFlag k) = errorCode k - 1 := fun k => by cases k <;> rfl
  exact ⟨by decide, by decide, by decide, by decide, by decide, by decide, herror, by decide,
    fun _ _ => rfl, fun _ => rfl, rfl⟩

/-- From `s` to `t` flags are set, if any, and only inside the mask. -/
def SetsFlagsWithin (mask : BitVec 8) (s t : State) : Prop :=
  ∃ x : BitVec 8, x &&& ~~~mask = 0#8 ∧ t.faultFlags = s.faultFlags ||| x

namespace SetsFlagsWithin

variable {mask : BitVec 8} {s t u : State}

theorem sticky (h : SetsFlagsWithin mask s t) : s.faultFlags &&& t.faultFlags = s.faultFlags := by
  obtain ⟨x, -, ht⟩ := h
  rw [ht]
  ext k
  rw [BitVec.getElem_and, BitVec.getElem_or]
  cases s.faultFlags[k] <;> rfl

theorem outside (h : SetsFlagsWithin mask s t) : t.faultFlags &&& ~~~mask = s.faultFlags &&& ~~~mask := by
  obtain ⟨x, hx, ht⟩ := h
  calc (t.faultFlags &&& ~~~mask)
      = (s.faultFlags &&& ~~~mask) ||| (x &&& ~~~mask) := by rw [ht, BitVec.and_or_distrib_right]
    _ = s.faultFlags &&& ~~~mask := by rw [hx, BitVec.or_zero]

theorem trans (h : SetsFlagsWithin mask s t) (h' : SetsFlagsWithin mask t u) : SetsFlagsWithin mask s u := by
  obtain ⟨x, hx, ht⟩ := h
  obtain ⟨y, hy, hu⟩ := h'
  refine ⟨x ||| y, ?_, by rw [hu, ht, BitVec.or_assoc]⟩
  rw [BitVec.and_or_distrib_right, hx, hy, BitVec.or_zero]

theorem of_same (ht : t.faultFlags = s.faultFlags) : SetsFlagsWithin mask s t :=
  ⟨0#8, BitVec.zero_and, ht.trans BitVec.or_zero.symm⟩

theorem of_set (f : FaultFlag) (ht : t.faultFlags = s.faultFlags ||| flagMask f) (hf : flagMask f &&& ~~~mask = 0#8) :
    SetsFlagsWithin mask s t :=
  ⟨flagMask f, hf, ht⟩

/-- Giving up what is in flight sets at most `FF_ABORT`. -/
theorem of_abort (ht : t.faultFlags = abortFlags s) (hf : flagMask .abort &&& ~~~mask = 0#8) :
    SetsFlagsWithin mask s t := by
  unfold abortFlags at ht
  split at ht
  · exact of_set .abort ht hf
  · exact of_same ht

end SetsFlagsWithin

/-! ### The operations -/

theorem sendPacket_setsFlags (len : Nat) (s : State) : SetsFlagsWithin 0x0D#8 s (sendPacket len s) := by
  unfold sendPacket
  split
  · exact .of_set .len rfl (by decide)
  · split
    · exact .of_set .abort rfl (by decide)
    · split
      · exact .of_set .oom rfl (by decide)
      · exact .of_same rfl

theorem setExpectedLength_setsFlags (total : Nat) (s : State) : SetsFlagsWithin 0x04#8 s (setExpectedLength total s) := by
  unfold setExpectedLength
  split
  · exact .of_set .len rfl (by decide)
  · exact .of_same rfl

theorem disconnect_setsFlags (s : State) : SetsFlagsWithin 0x08#8 s (disconnect s) := by
  rw [disconnect_eq]
  split
  · exact .of_abort rfl (by decide)
  · exact .of_same rfl

/-- A byte sets the flag of its fault; the persistent CRC fault sets its own as well, and what it aborts. -/
theorem receiveByte_setsFlags (b : Byte) (s : State) : SetsFlagsWithin 0x8F#8 s (receiveByte b s) := by
  rcases receiveByte_cases b s with
    ⟨h, -⟩ | ⟨-, -, ⟨h, -⟩ | h | h | h⟩ | ⟨-, -, ⟨-, h | h | ⟨pkt, h | h⟩⟩ | ⟨-, h⟩⟩ <;> rw [h]
  case inr.inl.inl => exact .of_set .oom rfl (by decide)
  case inr.inl.inr.inl => exact .of_set .len rfl (by decide)
  case inr.inr.inl.inr.inl => exact .of_set .crc rfl (by decide)
  case inr.inr.inr =>
    have hcrc : SetsFlagsWithin 0x8F#8 s (afterReceiveFault .crcMismatch s) := .of_set .crc rfl (by decide)
    have hpersist : SetsFlagsWithin 0x8F#8 _ (setFlag .crcPersist (afterReceiveFault .crcMismatch s)) :=
      .of_set .crcPersist rfl (by decide)
    exact (hcrc.trans hpersist).trans (.of_abort rfl (by decide))
  all_goals exact .of_same rfl

theorem writeDone_setsFlags (s : State) : SetsFlagsWithin 0x00#8 s (writeDone s) := by
  unfold writeDone
  split
  · dsimp only; split <;> exact .of_same rfl
  · exact .of_same rfl

theorem endTransaction_setsFlags (s : State) : SetsFlagsWithin 0x08#8 s (endTransaction s) := by
  rw [endTransaction_eq]
  exact .of_abort rfl (by decide)

theorem contactLost_setsFlags (s : State) : SetsFlagsWithin 0x48#8 s (contactLost s) := by
  have hlost : SetsFlagsWithin 0x48#8 s (setFlag .contactLost { s with contact := false }) :=
    .of_set .contactLost rfl (by decide)
  unfold contactLost
  dsimp only
  split
  case h_1 => exact .of_same rfl
  case h_2 | h_3 => rw [goIdle_eq]; exact hlost
  case h_4 =>
    rw [goIdle_eq, leaveConnected_eq]
    exact hlost.trans (.of_abort rfl (by decide))
  case h_5 => rw [goIdle_eq]; exact .of_same rfl

theorem partnerPresent_setsFlags (s : State) : SetsFlagsWithin 0x00#8 s (partnerPresent s) := by
  unfold partnerPresent
  split <;> exact .of_same rfl

theorem orientationFound_setsFlags (o : Orientation) (s : State) :
    SetsFlagsWithin 0x00#8 s (orientationFound o s) := by
  unfold orientationFound
  split <;> exact .of_same rfl

theorem detectTimeout_setsFlags (s : State) : SetsFlagsWithin 0x10#8 s (detectTimeout s) := by
  unfold detectTimeout
  split
  · dsimp only
    split
    · exact .of_same rfl
    · split
      · exact .of_same rfl
      · rw [goIdle_eq]; exact .of_set .detTmo rfl (by decide)
  · exact .of_same rfl

theorem negotiateTimeout_setsFlags (s : State) : SetsFlagsWithin 0x20#8 s (negotiateTimeout s) := by
  unfold negotiateTimeout
  split
  · rw [goIdle_eq]; exact .of_set .negTmo rfl (by decide)
  · exact .of_same rfl

theorem teardownDone_setsFlags (s : State) : SetsFlagsWithin 0x00#8 s (teardownDone s) := by
  unfold teardownDone
  split
  · rw [goIdle_eq]; exact .of_same rfl
  · exact .of_same rfl

/-- `CONTACT` clears the flags in `IDLE`, rule R182. -/
theorem contactMade_faultFlags (s : State) :
    (contactMade s).faultFlags = if s.connState = .idle then 0x00#8 else s.faultFlags := by
  unfold contactMade
  dsimp only
  split <;> rfl

/-- The operation clears all flags, rule R27. -/
def clearsFlags (i : Instr) (s : State) : Prop := i = .reset ∨ (i = .contact ∧ s.connState = .idle)

theorem exec_clearsFlags {i : Instr} {s t : State} (hi : clearsFlags i s) (h : exec i s = .next t) :
    t.faultFlags = 0x00#8 := by
  rcases hi with rfl | ⟨rfl, hidle⟩
  · cases h; rfl
  · cases h; rw [contactMade_faultFlags, if_pos hidle]

/-- Every other operation only sets flags, those that the table of rule R27 gives it. -/
theorem exec_setsFlags {i : Instr} {s t : State} (hi : ¬clearsFlags i s) (h : exec i s = .next t) :
    SetsFlagsWithin (flagsSetBy i) s t := by
  cases i with
  | send len => cases h; exact sendPacket_setsFlags len s
  | rxlen total => cases h; exact setExpectedLength_setsFlags total s
  | disc => cases h; exact disconnect_setsFlags s
  | rxb b => cases h; exact receiveByte_setsFlags b s
  | wrdone => cases h; exact writeDone_setsFlags s
  | txnend | chabort => cases h; exact endTransaction_setsFlags s
  | contact =>
    have hidle : s.connState ≠ .idle := fun hc => hi (.inr ⟨rfl, hc⟩)
    cases h
    exact .of_same (by rw [contactMade_faultFlags, if_neg hidle])
  | nocontact => cases h; exact contactLost_setsFlags s
  | present => cases h; exact partnerPresent_setsFlags s
  | orient o => cases h; exact orientationFound_setsFlags _ s
  | tmodet => cases h; exact detectTimeout_setsFlags s
  | tmoneg => cases h; exact negotiateTimeout_setsFlags s
  | poolav a => cases h; exact .of_same rfl
  | discdone => cases h; exact teardownDone_setsFlags s
  | reset => exact absurd (.inl rfl) hi

/-- Settles O55: an operation that does not clear the flags ORs bits of its own mask into them. -/
theorem faultFlagsAreStickyAndSetByTheirOwners : Obligations.FaultFlagsAreStickyAndSetByTheirOwners := by
  intro i s t h
  refine ⟨fun hi => exec_clearsFlags hi h, fun hi => ?_⟩
  have hset := exec_setsFlags hi h
  exact ⟨hset.sticky, hset.outside⟩

end Sys2Proof.Machine
end

section
/-! What no operation reads (rules R10, R43, R70): the events still pending, the outputs already emitted, the idle counter
and, but for `SEND`, `TXBUF`. A procedure that reads only the block is put together from such procedures and from tests on
the block, along its own definition. -/

namespace Sys2Proof.Machine

/-- `s` with other contents in the fields that are not the block's: the model's own three, and the host's `TXBUF`. -/
def withSurroundings (q : List Event) (o : List Output) (n : Nat) (m : Memory) (s : State) : State :=
  { s with pending := q, out := o, idleSteps := n, txbuf := m }

@[simp] theorem withSurroundings_cfg (q : List Event) (o : List Output) (n : Nat) (m : Memory) (s : State) :
    (withSurroundings q o n m s).cfg = s.cfg := rfl
@[simp] theorem withSurroundings_connState (q : List Event) (o : List Output) (n : Nat) (m : Memory) (s : State) :
    (withSurroundings q o n m s).connState = s.connState := rfl
@[simp] theorem withSurroundings_txState (q : List Event) (o : List Output) (n : Nat) (m : Memory) (s : State) :
    (withSurroundings q o n m s).txState = s.txState := rfl

/-- From `s`, `f` emits the same outputs and does the same to the block whatever the surroundings hold; of these it writes
only the outputs, which it appends. -/
def ReadsOnlyTheBlock (f : State → State) (s : State) : Prop :=
  ∃ os, ∀ q o n m, f (withSurroundings q o n m s) = withSurroundings q (o ++ os) n m (f s)

namespace ReadsOnlyTheBlock

variable {f g : State → State} {s : State}

/-! ### How such procedures are put together -/

/-- A procedure that emits nothing; for a plain update of the block the premise is definitional. -/
theorem silent (h : ∀ q o n m, f (withSurroundings q o n m s) = withSurroundings q o n m (f s) := by intros; rfl) :
    ReadsOnlyTheBlock f s :=
  ⟨[], fun q o n m => by rw [h, List.append_nil]⟩

theorem andThen (hf : ReadsOnlyTheBlock f s) (hg : ReadsOnlyTheBlock g (f s)) :
    ReadsOnlyTheBlock (fun u => g (f u)) s := by
  obtain ⟨os, hf⟩ := hf
  obtain ⟨os', hg⟩ := hg
  exact ⟨os ++ os', fun _ _ _ _ => by simp only [hf, hg, List.append_assoc]⟩

theorem thenEmit (hf : ReadsOnlyTheBlock f s) (x : Output) : ReadsOnlyTheBlock (fun u => emit x (f u)) s :=
  hf.andThen ⟨[x], fun _ _ _ _ => rfl⟩

/-- A test and a procedure for each answer; that the test is on the block is definitional for a test of its registers. -/
theorem ite {p : State → Prop} [DecidablePred p]
    (hf : p s → ReadsOnlyTheBlock f s) (hg : ¬p s → ReadsOnlyTheBlock g s)
    (hp : ∀ q o n m, p (withSurroundings q o n m s) ↔ p s := by intros; rfl) :
    ReadsOnlyTheBlock (fun u => if p u then f u else g u) s := by
  by_cases h : p s
  · obtain ⟨os, hf⟩ := hf h
    exact ⟨os, fun q o n m => (if_pos ((hp q o n m).mpr h)).trans (by simp only [if_pos h, hf])⟩
  · obtain ⟨os, hg⟩ := hg h
    exact ⟨os, fun q o n m => (if_neg (mt (hp q o n m).mp h)).trans (by simp only [if_neg h, hg])⟩

/-- From `s`, `f` takes the branch `g` whatever the surroundings hold. -/
theorem of_branch (h : ∀ q o n m, f (withSurroundings q o n m s) = g (withSurroundings q o n m s))
    (hg : ReadsOnlyTheBlock g s) : ReadsOnlyTheBlock f s := by
  obtain ⟨os, hg⟩ := hg
  have hs : f s = g s := h s.pending s.out s.idleSteps s.txbuf
  exact ⟨os, fun q o n m => by rw [h, hg, hs]⟩

/-! ### What it says of a state -/

/-- Other events pending, other outputs before, another idle counter. -/
theorem changed_ownFields (h : ReadsOnlyTheBlock f s) (q : List Event) (o : List Output) (n : Nat) :
    f { s with pending := q, out := o, idleSteps := n } =
      { f s with pending := q, out := o ++ emitted s (f s), idleSteps := n } := by
  obtain ⟨os, h⟩ := h
  have hself : f s = withSurroundings s.pending (s.out ++ os) s.idleSteps s.txbuf (f s) :=
    h s.pending s.out s.idleSteps s.txbuf
  have hemitted : emitted s (f s) = os := by rw [hself]; exact List.drop_left
  have htxbuf : (f s).txbuf = s.txbuf := by rw [hself]; rfl
  calc f { s with pending := q, out := o, idleSteps := n }
      = withSurroundings q (o ++ os) n s.txbuf (f s) := h q o n s.txbuf
    _ = { f s with pending := q, out := o ++ emitted s (f s), idleSteps := n } := by rw [hemitted, ← htxbuf]; rfl

/-- Another content of `TXBUF`. -/
theorem changed_txbuf (h : ReadsOnlyTheBlock f s) (m : Memory) : f { s with txbuf := m } = { f s with txbuf := m } := by
  obtain ⟨os, h⟩ := h
  have hself : f s = withSurroundings s.pending (s.out ++ os) s.idleSteps s.txbuf (f s) :=
    h s.pending s.out s.idleSteps s.txbuf
  calc f { s with txbuf := m }
      = withSurroundings s.pending (s.out ++ os) s.idleSteps m (f s) := h s.pending s.out s.idleSteps m
    _ = { f s with txbuf := m } := by rw [hself]; rfl

end ReadsOnlyTheBlock

open ReadsOnlyTheBlock

/-! ### The shared procedures -/

theorem goIdle_readsOnly (s : State) : ReadsOnlyTheBlock goIdle s :=
  ⟨if s.tmr = .off then [] else [.tmrCancel], fun _ _ _ _ => by rw [goIdle_eq, goIdle_eq]; rfl⟩

theorem sendCleared_withSurroundings (q : List Event) (o : List Output) (n : Nat) (m : Memory) (s : State) :
    sendCleared (withSurroundings q o n m s) = withSurroundings q o n m (sendCleared s) := by
  unfold sendCleared
  rw [withSurroundings_txState]
  split <;> rfl

theorem leaveConnected_readsOnly (s : State) : ReadsOnlyTheBlock leaveConnected s :=
  ⟨leaveOutputs s, fun _ _ _ _ => by simp only [leaveConnected_eq, afterLeaving, sendCleared_withSurroundings]; rfl⟩

theorem endTransaction_readsOnly (s : State) : ReadsOnlyTheBlock endTransaction s :=
  ⟨boundaryOutputs s, fun _ _ _ _ => by rw [endTransaction_eq, endTransaction_eq, sendCleared_withSurroundings]; rfl⟩

theorem countCrcFault_readsOnly (s : State) : ReadsOnlyTheBlock countCrcFault s :=
  .ite
    (fun _ => andThen (g := fun u => { u with connState := .disconnecting })
      (andThen silent (leaveConnected_readsOnly _)) silent)
    (fun _ => silent)

theorem rxFault_readsOnly (k : ErrorKind) (s : State) : ReadsOnlyTheBlock (rxFault k) s := by
  have hreport : ReadsOnlyTheBlock (fun u =>
      emit (.cbFault k) (setFlag (errorFlag k) { rxClear u with rxState := .fault })) s :=
    thenEmit silent _
  exact .ite (fun _ => hreport.andThen (countCrcFault_readsOnly _)) (fun _ => hreport)

/-! ### The connector -/

theorem contactMade_readsOnly (s : State) : ReadsOnlyTheBlock contactMade s :=
  .ite (fun _ => thenEmit (thenEmit silent _) _) (fun _ => silent)

theorem contactLost_readsOnly (s : State) : ReadsOnlyTheBlock contactLost s := by
  have hlost : ReadsOnlyTheBlock (fun u => setFlag .contactLost { u with contact := false }) s := silent
  have hseen : ReadsOnlyTheBlock (fun u => { u with contact := false }) s := silent
  cases hc : s.connState with
  | idle => exact of_branch (fun _ _ _ _ => by simp only [contactLost, withSurroundings_connState, hc]) hseen
  | detecting | negotiating =>
    exact of_branch (fun _ _ _ _ => by simp only [contactLost, withSurroundings_connState, hc])
      (hlost.andThen (goIdle_readsOnly _))
  | connected =>
    exact of_branch (fun _ _ _ _ => by simp only [contactLost, withSurroundings_connState, hc])
      ((hlost.andThen (leaveConnected_readsOnly _)).andThen (goIdle_readsOnly _))
  | disconnecting =>
    exact of_branch (fun _ _ _ _ => by simp only [contactLost, withSurroundings_connState, hc])
      (hseen.andThen (goIdle_readsOnly _))

theorem partnerPresent_readsOnly (s : State) : ReadsOnlyTheBlock partnerPresent s :=
  .ite (fun _ => thenEmit (thenEmit silent _) _) (fun _ => silent)

theorem orientationFound_readsOnly (r : Orientation) (s : State) : ReadsOnlyTheBlock (orientationFound r) s := by
  have hlink : ∀ u, ReadsOnlyTheBlock (fun v => { rxClear { v with orientation := r, connected := true, chanEn := true }
      with rxState := .expectHeader, crcFaultCnt := 0, connState := .connected }) u :=
    fun _ => silent
  exact .ite (fun _ => thenEmit (andThen (thenEmit silent _) (hlink _)) _) (fun _ => silent)

theorem probeAgain_readsOnly (s : State) : ReadsOnlyTheBlock probeAgain s :=
  thenEmit (thenEmit silent _) _

theorem detectTimeout_readsOnly (s : State) : ReadsOnlyTheBlock detectTimeout s := by
  refine .ite (fun _ => ?_) (fun _ => silent)
  have hstopped : ReadsOnlyTheBlock (fun u => { u with tmr := .off }) s := silent
  cases hmax : s.cfg.detectRetryMax with
  | none =>
    exact of_branch (fun _ _ _ _ => by simp only [withSurroundings_cfg, hmax])
      (hstopped.andThen (probeAgain_readsOnly _))
  | some k =>
    have hretry : ∀ u, ReadsOnlyTheBlock (fun v =>
        if v.retryCnt < k then probeAgain { v with retryCnt := v.retryCnt + 1 } else goIdle (setFlag .detTmo v)) u :=
      fun _ => .ite (fun _ => andThen silent (probeAgain_readsOnly _)) (fun _ => andThen silent (goIdle_readsOnly _))
    exact of_branch (fun _ _ _ _ => by simp only [withSurroundings_cfg, hmax]) (hstopped.andThen (hretry _))

theorem negotiateTimeout_readsOnly (s : State) : ReadsOnlyTheBlock negotiateTimeout s :=
  .ite (fun _ => andThen silent (goIdle_readsOnly _)) (fun _ => silent)

theorem disconnect_readsOnly (s : State) : ReadsOnlyTheBlock disconnect s :=
  .ite
    (fun _ => andThen (g := fun u => { u with connState := .disconnecting }) (leaveConnected_readsOnly s) silent)
    (fun _ => silent)

theorem teardownDone_readsOnly (s : State) : ReadsOnlyTheBlock teardownDone s :=
  .ite (fun _ => goIdle_readsOnly s) (fun _ => silent)

/-! ### The receive path -/

theorem setExpectedLength_readsOnly (total : Nat) (s : State) : ReadsOnlyTheBlock (setExpectedLength total) s :=
  .ite (fun _ => thenEmit silent _) (fun _ => silent)

theorem headerComplete_readsOnly (s : State) : ReadsOnlyTheBlock headerComplete s :=
  .ite (fun _ => rxFault_readsOnly _ s) (fun _ => silent)

theorem headerStore_readsOnly (b : Byte) (s : State) : ReadsOnlyTheBlock (headerStore b) s :=
  .ite (fun _ => andThen silent (headerComplete_readsOnly _)) (fun _ => silent)

theorem headerByte_readsOnly (b : Byte) (s : State) : ReadsOnlyTheBlock (headerByte b) s :=
  .ite
    (fun _ => .ite
      (fun _ => rxFault_readsOnly _ s)
      (fun _ => andThen (f := fun u => { u with rxBusy := true }) silent (headerStore_readsOnly b _)))
    (fun _ => headerStore_readsOnly b s)

theorem deliver_readsOnly (s : State) : ReadsOnlyTheBlock deliver s :=
  ⟨[.cbPacket s.cfg.connectorId s.rxPkt], fun _ _ _ _ => rfl⟩

theorem acceptBlob_readsOnly (s : State) : ReadsOnlyTheBlock acceptBlob s :=
  .ite (fun _ => andThen silent (deliver_readsOnly _)) (fun _ => silent)

theorem blobComplete_readsOnly (s : State) : ReadsOnlyTheBlock blobComplete s :=
  .ite (fun _ => acceptBlob_readsOnly s) (fun _ => rxFault_readsOnly _ s)

theorem bodyByte_readsOnly (b : Byte) (s : State) : ReadsOnlyTheBlock (bodyByte b) s :=
  .ite (fun _ => andThen silent (blobComplete_readsOnly _)) (fun _ => silent)

theorem receiveByte_readsOnly (b : Byte) (s : State) : ReadsOnlyTheBlock (receiveByte b) s := by
  by_cases hdrop : s.chanEn = false ∨ s.rxState = .fault
  · exact of_branch (g := id) (fun _ _ _ _ => receiveByte_dropped b hdrop) silent
  obtain ⟨hoff, hfault⟩ := not_or.mp hdrop
  have hon : s.chanEn = true := Bool.eq_true_of_not_eq_false hoff
  cases hs : s.rxState with
  | fault => exact absurd hs hfault
  | expectHeader => exact of_branch (fun _ _ _ _ => receiveByte_header b hon hs) (headerByte_readsOnly b s)
  | expectPayload => exact of_branch (fun _ _ _ _ => receiveByte_body b hon hs) (bodyByte_readsOnly b s)

/-! ### The send path -/

/-- `SEND` with its packet given, instead of read from `TXBUF`. -/
def sendGiven (pkt : List Byte) (len : Nat) (s : State) : State :=
  if s.cfg.maxPacket < len then rejectSend .lengthOutOfRange s
  else if s.chanEn = false then rejectSend .channelAborted s
  else if s.txState = .sending ∨ s.poolAvail = false then rejectSend .outOfMemory s
  else acceptSend pkt s

/-- `SEND` reads `TXBUF` only for its packet. -/
theorem sendPacket_eq_sendGiven (len : Nat) (s : State) : sendPacket len s = sendGiven (sendOperand len s) len s := rfl

theorem sendGiven_readsOnly (pkt : List Byte) (len : Nat) (s : State) : ReadsOnlyTheBlock (sendGiven pkt len) s := by
  have hreject : ∀ k, ReadsOnlyTheBlock (rejectSend k) s := fun k => ⟨[.cbSendFailed k], fun _ _ _ _ => rfl⟩
  have haccept : ReadsOnlyTheBlock (acceptSend pkt) s :=
    ⟨[.chWrite (encodeBlob s.cfg (slice s.cfg pkt 0))], fun _ _ _ _ => rfl⟩
  exact .ite (fun _ => hreject _) fun _ => .ite (fun _ => hreject _) fun _ =>
    .ite (fun _ => hreject _) fun _ => haccept

/-- The packet in flight is the block's own, so `WRDONE` does not look at `TXBUF` for the next blob. -/
theorem writeDone_readsOnly (s : State) : ReadsOnlyTheBlock writeDone s :=
  .ite
    (fun _ => .ite
      (fun _ => thenEmit silent _)
      (fun _ => ⟨[.chWrite (encodeBlob s.cfg (slice s.cfg s.txPkt (s.txIdx.toNat + 1)))], fun _ _ _ _ => rfl⟩))
    (fun _ => silent)

/-! ### Every operation -/

/-- An operation other than `SEND` is a procedure that reads only the block. -/
theorem exec_readsOnly {i : Instr} (hi : ∀ len, i ≠ .send len) (s : State) :
    ∃ f, ReadsOnlyTheBlock f s ∧ ∀ u, exec i u = .next (f u) := by
  cases i with
  | send len => exact absurd rfl (hi len)
  | rxlen total => exact ⟨_, setExpectedLength_readsOnly total s, exec_rxlen total⟩
  | disc => exact ⟨_, disconnect_readsOnly s, exec_disc⟩
  | rxb b => exact ⟨_, receiveByte_readsOnly b s, exec_rxb b⟩
  | wrdone => exact ⟨_, writeDone_readsOnly s, exec_wrdone⟩
  | txnend => exact ⟨_, endTransaction_readsOnly s, exec_txnend⟩
  | chabort => exact ⟨_, endTransaction_readsOnly s, exec_chabort⟩
  | contact => exact ⟨_, contactMade_readsOnly s, exec_contact⟩
  | nocontact => exact ⟨_, contactLost_readsOnly s, exec_nocontact⟩
  | present => exact ⟨_, partnerPresent_readsOnly s, exec_present⟩
  | orient r => exact ⟨_, orientationFound_readsOnly _ s, exec_orient r⟩
  | tmodet => exact ⟨_, detectTimeout_readsOnly s, exec_tmodet⟩
  | tmoneg => exact ⟨_, negotiateTimeout_readsOnly s, exec_tmoneg⟩
  | poolav a => exact ⟨_, silent, exec_poolav a⟩
  | discdone => exact ⟨_, teardownDone_readsOnly s, exec_discdone⟩
  | reset => exact ⟨_, silent, exec_reset⟩

/-- With `TXBUF` as it is in `s`, every operation is a procedure that reads only the block. -/
theorem exec_readsOnly_of_same_txbuf (i : Instr) (s : State) :
    ∃ f, ReadsOnlyTheBlock f s ∧ ∀ u, u.txbuf = s.txbuf → exec i u = .next (f u) := by
  by_cases hi : ∃ len, i = .send len
  · obtain ⟨len, rfl⟩ := hi
    refine ⟨_, sendGiven_readsOnly (sendOperand len s) len s, fun u hu => ?_⟩
    rw [exec_send, sendPacket_eq_sendGiven, sendOperand, hu, sendOperand]
  · obtain ⟨f, hf, hexec⟩ := exec_readsOnly (not_exists.mp hi) s
    exact ⟨f, hf, fun u _ => hexec u⟩

/-- Settles O60: with `TXBUF` unchanged every operation is a procedure that reads only the block, and all but `SEND` are
whatever `TXBUF` holds. -/
theorem operationsReadOnlyTheBlock : Obligations.OperationsReadOnlyTheBlock := by
  intro i s t q o n m h
  constructor
  · obtain ⟨f, hf, hexec⟩ := exec_readsOnly_of_same_txbuf i s
    obtain rfl : f s = t := Host.Outcome.next.inj ((hexec s rfl).symm.trans h)
    rw [hexec { s with pending := q, out := o, idleSteps := n } rfl, hf.changed_ownFields]
  · intro hi
    obtain ⟨f, hf, hexec⟩ := exec_readsOnly hi s
    obtain rfl : f s = t := Host.Outcome.next.inj ((hexec s).symm.trans h)
    rw [hexec, hf.changed_txbuf]

end Sys2Proof.Machine
end

section
/-! Event words (rules R105 to R108): the decoder and the encoder are inverse to each other, and the decoder reads exactly the
rows of the opcode table. -/

namespace Sys2Proof

/-! ### Decoding what was encoded -/

/-- A byte set into `imm` leaves `imm[15:8]` at 0 (rule R106). -/
theorem high8_setWidth (b : Byte) : ((b.setWidth 16).extractLsb' 8 8).toNat = 0 := by
  have := b.isLt
  simp only [BitVec.extractLsb'_toNat, BitVec.toNat_setWidth, Nat.shiftRight_eq_div_pow]
  omega

/-- A byte set into `imm` is found in `imm[7:0]` (rule R106). -/
theorem low8_setWidth (b : Byte) : (b.setWidth 16).extractLsb' 0 8 = b := by
  apply BitVec.eq_of_toNat_eq
  have := b.isLt
  simp only [BitVec.extractLsb'_toNat, BitVec.toNat_setWidth, Nat.shiftRight_zero]
  omega

/-- The decoder on the two fields of a well-formed operation. -/
theorem decodeOperand_opcode_operandImm {i : Instr} (h : i.wf = true) :
    decodeOperand (opcode i) (operandImm i) = .ok i := by
  cases i with
  | send len =>
    have hlen : len < 2 ^ 16 := of_decide_eq_true h
    exact congrArg (fun n => Except.ok (Instr.send n)) ((BitVec.toNat_ofNat len 16).trans (Nat.mod_eq_of_lt hlen))
  | rxlen total =>
    have htotal : total < 2 ^ 16 := of_decide_eq_true h
    exact congrArg (fun n => Except.ok (Instr.rxlen n)) ((BitVec.toNat_ofNat total 16).trans (Nat.mod_eq_of_lt htotal))
  | rxb b =>
    calc decodeOperand (opcode (.rxb b)) (operandImm (.rxb b))
      _ = .ok (.rxb ((b.setWidth 16).extractLsb' 0 8)) := if_pos (high8_setWidth b)
      _ = .ok (.rxb b) := by rw [low8_setWidth]
  | orient o => revert o; decide
  | poolav a => revert a; decide
  | disc | wrdone | txnend | chabort | contact | nocontact | present | tmodet | tmoneg | discdone | reset => rfl

/-- Settles O2: the encoded word has the operation's two fields and `z = 0`, and those decode to it. -/
theorem decodeOfEncodeIsTheOperation : Obligations.DecodeOfEncodeIsTheOperation := by
  intro i h
  rw [encode, decode_eventWord, decodeOperand_opcode_operandImm h]

/-! ### Encoding what was decoded -/

/-- The fields of a word that decodes are those of the operation it decodes to, which is well-formed. -/
theorem fields_of_decodeOperand {op : Byte} {imm : BitVec 16} {i : Instr} (h : decodeOperand op imm = .ok i) :
    i.wf = true ∧ opcode i = op ∧ operandImm i = imm := by
  have hcount : imm.toNat < 65536 := imm.isLt
  unfold decodeOperand at h
  split at h <;> rename_i hop
  case h_17 => cases h
  case h_1 | h_2 =>
    cases h
    exact ⟨decide_eq_true hcount, BitVec.eq_of_toNat_eq hop.symm, (BitVec.ofNat_toNat 16 imm).trans (BitVec.setWidth_eq imm)⟩
  case h_4 =>
    obtain ⟨hz, rfl⟩ := mustBeZero_ok h
    exact ⟨rfl, BitVec.eq_of_toNat_eq hop.symm, low8_of_high8 hz⟩
  case h_11 =>
    obtain ⟨hz, rfl⟩ := mustBeZero_ok h
    exact ⟨rfl, BitVec.eq_of_toNat_eq hop.symm, low2_of_high14 hz⟩
  case h_14 =>
    obtain ⟨hz, rfl⟩ := mustBeZero_ok h
    exact ⟨rfl, BitVec.eq_of_toNat_eq hop.symm, low1_of_high15 hz⟩
  all_goals
    obtain ⟨hz, rfl⟩ := mustBeZero_ok h
    exact ⟨rfl, BitVec.eq_of_toNat_eq hop.symm, BitVec.eq_of_toNat_eq hz.symm⟩

/-- A word that decodes has `z = 0`, and its other two fields decode (rules R105, R108). -/
theorem decode_ok_iff {w : EventWord} {i : Instr} :
    decode w = .ok i ↔ zField w = 0#8 ∧ decodeOperand (opField w) (immField w) = .ok i := by
  unfold decode
  split <;> simp [*]

/-- Settles O3: a word that decodes is put together from its fields, which are the operation's. -/
theorem decodedWordIsItsEncoding : Obligations.DecodedWordIsItsEncoding := by
  intro w i h
  obtain ⟨hz, hd⟩ := decode_ok_iff.mp h
  obtain ⟨hwf, hop, himm⟩ := fields_of_decodeOperand hd
  exact ⟨hwf, by rw [encode, hop, himm, eventWord_fields hz]⟩

/-! ### The opcode table -/

/-- The word of a well-formed operation matches the table's row of its mnemonic. -/
theorem encode_matches_row (i : Instr) : Laws.TableRow.Statement i := by
  cases i with
  | send len => exact Laws.TableRow.send len
  | rxlen total => exact Laws.TableRow.rxlen total
  | disc => exact Laws.TableRow.disc
  | rxb b => exact Laws.TableRow.rxb b
  | wrdone => exact Laws.TableRow.wrdone
  | txnend => exact Laws.TableRow.txnend
  | chabort => exact Laws.TableRow.chabort
  | contact => exact Laws.TableRow.contact
  | nocontact => exact Laws.TableRow.nocontact
  | present => exact Laws.TableRow.present
  | orient o => exact Laws.TableRow.orient o
  | tmodet => exact Laws.TableRow.tmodet
  | tmoneg => exact Laws.TableRow.tmoneg
  | poolav a => exact Laws.TableRow.poolav a
  | discdone => exact Laws.TableRow.discdone
  | reset => exact Laws.TableRow.reset

/-- No two rows of the table have one mnemonic. -/
theorem row_eq_of_mnemonic : ∀ r ∈ opcodeTable, ∀ r' ∈ opcodeTable, r.mnemonic = r'.mnemonic → r = r' := by decide

/-- A word that matches a row whose mask spares no bit is the row's pattern. -/
theorem eq_pattern_of_matches {r : Row} {w : EventWord} (hmask : r.mask = BitVec.allOnes 32)
    (h : r.matchesWord w = true) : w = r.pattern := by
  rwa [Row.matchesWord, hmask, BitVec.and_allOnes, beq_iff_eq] at h

/-- A word that matches a row whose mask spares the low `k` bits is the encoding of an operation with the row's `op` code and
those bits as `imm`. -/
theorem encode_eq_of_matches {r : Row} {w : EventWord} {k : Nat} {i : Instr} (hmask : r.mask = BitVec.allOnes 32 <<< k)
    (hop : (opcode i).toNat * 2 ^ 24 = r.pattern.toNat) (himm : (operandImm i).toNat = w.toNat % 2 ^ k)
    (h : r.matchesWord w = true) : encode i = w := by
  apply BitVec.eq_of_toNat_eq
  rw [encode, eventWord_toNat, hop, himm, ← (matchesWord_iff hmask w).mp h, Nat.div_add_mod']

/-- A word that matches a row is the encoding of a well-formed operation of the row's mnemonic. -/
theorem exists_encode_of_matches {r : Row} {w : EventWord} (hr : r ∈ opcodeTable) (h : r.matchesWord w = true) :
    ∃ i, i.wf = true ∧ encode i = w ∧ mnemonic i = r.mnemonic := by
  simp only [opcodeTable, List.cons_append, List.nil_append, List.mem_cons, List.not_mem_nil, or_false] at hr
  rcases hr with rfl | rfl | rfl | rfl | rfl | rfl | rfl | rfl | rfl | rfl | rfl | rfl | rfl | rfl | rfl | rfl
  · refine ⟨.send (w.toNat % 2 ^ 16), decide_eq_true (Nat.mod_lt _ (by decide)), ?_, rfl⟩
    exact encode_eq_of_matches (k := 16) (by decide) (by simp [opcode]) (by simp [operandImm]) h
  · refine ⟨.rxlen (w.toNat % 2 ^ 16), decide_eq_true (Nat.mod_lt _ (by decide)), ?_, rfl⟩
    exact encode_eq_of_matches (k := 16) (by decide) (by simp [opcode]) (by simp [operandImm]) h
  · exact ⟨.disc, rfl, (eq_pattern_of_matches rfl h).symm, rfl⟩
  · refine ⟨.rxb (BitVec.ofNat 8 w.toNat), rfl, ?_, rfl⟩
    exact encode_eq_of_matches (k := 8) (by decide) (by simp [opcode]) (by simp [operandImm]; omega) h
  · exact ⟨.wrdone, rfl, (eq_pattern_of_matches rfl h).symm, rfl⟩
  · exact ⟨.txnend, rfl, (eq_pattern_of_matches rfl h).symm, rfl⟩
  · exact ⟨.chabort, rfl, (eq_pattern_of_matches rfl h).symm, rfl⟩
  · exact ⟨.contact, rfl, (eq_pattern_of_matches rfl h).symm, rfl⟩
  · exact ⟨.nocontact, rfl, (eq_pattern_of_matches rfl h).symm, rfl⟩
  · exact ⟨.present, rfl, (eq_pattern_of_matches rfl h).symm, rfl⟩
  · refine ⟨.orient (BitVec.ofNat 2 w.toNat), rfl, ?_, rfl⟩
    exact encode_eq_of_matches (k := 2) (by decide) (by simp [opcode]) (by simp [operandImm]; omega) h
  · exact ⟨.tmodet, rfl, (eq_pattern_of_matches rfl h).symm, rfl⟩
  · exact ⟨.tmoneg, rfl, (eq_pattern_of_matches rfl h).symm, rfl⟩
  · refine ⟨.poolav (w.getLsbD 0), rfl, ?_, rfl⟩
    refine encode_eq_of_matches (k := 1) (by decide) (by simp [opcode]) ?_ h
    rw [operandImm, BitVec.toNat_setWidth, BitVec.toNat_ofBool, BitVec.getLsbD, Nat.toNat_testBit]
    omega
  · exact ⟨.discdone, rfl, (eq_pattern_of_matches rfl h).symm, rfl⟩
  · exact ⟨.reset, rfl, (eq_pattern_of_matches rfl h).symm, rfl⟩

/-- A word matches a row exactly when it decodes to an operation of the row's mnemonic: encoding and decoding are inverse, and
an operation's word matches the one row of its mnemonic. -/
theorem matchesWord_iff_decode {r : Row} (hr : r ∈ opcodeTable) (w : EventWord) :
    r.matchesWord w = true ↔ ∃ i, decode w = .ok i ∧ mnemonic i = r.mnemonic := by
  constructor
  · intro h
    obtain ⟨i, hwf, rfl, hname⟩ := exists_encode_of_matches hr h
    exact ⟨i, decodeOfEncodeIsTheOperation i hwf, hname⟩
  · rintro ⟨i, hd, hname⟩
    obtain ⟨hwf, rfl⟩ := decodedWordIsItsEncoding w i hd
    obtain ⟨r', hr', hname', hmatch⟩ := encode_matches_row i hwf
    obtain rfl := row_eq_of_mnemonic r' hr' r hr (hname'.trans hname)
    exact hmatch

/-- Settles O4: the second clause is the first one read for all rows, since every operation's mnemonic has a row. -/
theorem decoderReadsExactlyTheTable : Obligations.DecoderReadsExactlyTheTable := by
  refine ⟨fun w r hr => matchesWord_iff_decode hr w, fun w => ?_⟩
  constructor
  · intro hnone
    cases hd : decode w with
    | error why => exact ⟨why, rfl⟩
    | ok i =>
      obtain ⟨hwf, rfl⟩ := decodedWordIsItsEncoding w i hd
      obtain ⟨r, hr, -, hmatch⟩ := encode_matches_row i hwf
      exact absurd hmatch (Bool.eq_false_iff.mp (hnone r hr))
  · rintro ⟨why, hd⟩ r hr
    refine Bool.eq_false_iff.mpr fun hmatch => ?_
    obtain ⟨i, hok, -⟩ := (matchesWord_iff_decode hr w).mp hmatch
    cases hd.symm.trans hok

/-! ### Fixed words, and a reserved word at the step -/

/-- Settles O1: the words are fixed, so the decoder is run on them. -/
theorem tabledWordsDecode : Obligations.TabledWordsDecode := by
  unfold Obligations.TabledWordsDecode
  decide

end Sys2Proof

namespace Sys2Proof.Machine

/-- Settles O6: the event is taken and the host's stores land, and then the decoder's reason is the step's answer. -/
theorem reservedWordIsRefused : Obligations.ReservedWordIsRefused := by
  intro s e rest m why hp hm hd
  have hfill := fillTxbuf_of_hostStores (s := { s with pending := rest }) hm
  simp only [step, takeEvent_of_pending hp, hfill, hd]

end Sys2Proof.Machine
end

section
/-! The length and CRC fields of a blob in both byte orders (rules R92 and R94), and that decoding undoes encoding. -/

namespace Sys2Proof.Machine

/-- The unsigned sum of rule R92, least significant byte first. -/
theorem littleEndianNat_pair (b₀ b₁ : Byte) : littleEndianNat [b₀, b₁] = b₀.toNat + 256 * b₁.toNat := by
  simp [littleEndianNat]

/-- The unsigned sum of rule R94, least significant byte first. -/
theorem littleEndianNat_quad (b₀ b₁ b₂ b₃ : Byte) : littleEndianNat [b₀, b₁, b₂, b₃] =
    b₀.toNat + 2 ^ 8 * b₁.toNat + 2 ^ 16 * b₂.toNat + 2 ^ 24 * b₃.toNat := by
  simp only [littleEndianNat]
  omega

/-- Settles O10: the two bytes are the halves of the 16-bit number, and they are read back from either order. -/
theorem lengthFieldLayout : Obligations.LengthFieldLayout := by
  intro n hn
  have hlow : (BitVec.ofNat 16 n).extractLsb' 0 8 = BitVec.ofNat 8 n := by
    apply BitVec.eq_of_toNat_eq
    simp only [BitVec.extractLsb'_toNat, BitVec.toNat_ofNat, Nat.shiftRight_zero]
    omega
  have hhigh : (BitVec.ofNat 16 n).extractLsb' 8 8 = BitVec.ofNat 8 (n / 256) := by
    apply BitVec.eq_of_toNat_eq
    simp only [BitVec.extractLsb'_toNat, BitVec.toNat_ofNat, Nat.shiftRight_eq_div_pow]
    omega
  refine ⟨?_, fun b₀ b₁ => ⟨littleEndianNat_pair b₀ b₁, ?_⟩, fun e => decodeLen_encodeLen e hn, by decide, by decide⟩
  · dsimp only
    rw [hlow, hhigh]
    exact ⟨rfl, rfl⟩
  · exact (littleEndianNat_pair b₁ b₀).trans (Nat.add_comm _ _)

theorem decodeCrc_little_toNat (b₀ b₁ b₂ b₃ : Byte) : (decodeCrc .little [b₀, b₁, b₂, b₃]).toNat =
    b₀.toNat + 2 ^ 8 * b₁.toNat + 2 ^ 16 * b₂.toNat + 2 ^ 24 * b₃.toNat := by
  have := b₀.isLt
  have := b₁.isLt
  have := b₂.isLt
  have := b₃.isLt
  rw [decodeCrc, wireOrder, littleEndianNat_quad, BitVec.toNat_ofNat]
  omega

/-- The bytes of a CRC field are got back from the value they decode to, rule R94. -/
theorem encodeCrc_decodeCrc (e : Endian) (b₀ b₁ b₂ b₃ : Byte) :
    encodeCrc e (decodeCrc e [b₀, b₁, b₂, b₃]) = [b₀, b₁, b₂, b₃] := by
  have hlittle (c₀ c₁ c₂ c₃ : Byte) : encodeCrc .little (decodeCrc .little [c₀, c₁, c₂, c₃]) = [c₀, c₁, c₂, c₃] := by
    have := c₀.isLt
    have := c₁.isLt
    have := c₂.isLt
    have := c₃.isLt
    simp only [encodeCrc, wireOrder, List.cons.injEq, and_true]
    refine ⟨?_, ?_, ?_, ?_⟩ <;> apply BitVec.eq_of_toNat_eq <;>
      simp only [BitVec.extractLsb'_toNat, decodeCrc_little_toNat, Nat.shiftRight_eq_div_pow] <;> omega
  cases e with
  | little => exact hlittle b₀ b₁ b₂ b₃
  | big => exact congrArg List.reverse (hlittle b₃ b₂ b₁ b₀)

/-- Settles O11: encoding and decoding are inverse on both sides, and the rest is the layout itself. -/
theorem crcFieldLayout : Obligations.CrcFieldLayout := fun c b₀ b₁ b₂ b₃ =>
  ⟨rfl, rfl, fun e => ⟨decodeCrc_encodeCrc e c, encodeCrc_decodeCrc e b₀ b₁ b₂ b₃⟩, decodeCrc_little_toNat b₀ b₁ b₂ b₃,
    by decide⟩

end Sys2Proof.Machine
end

section
/-! The CRC of rule R97: its check values, the reflected form, and that its register never loses a difference (rule R98). -/

namespace Sys2Proof.Machine

/-- Settles O12: three fixed byte sequences, so the CRC is computed. -/
theorem crcCheckValues : Obligations.CrcCheckValues := by
  unfold Obligations.CrcCheckValues
  decide +kernel

/-! ### The reflected form: its register holds the bits in reverse order -/

theorem reverse_xor (x y : Crc) : (x ^^^ y).reverse = x.reverse ^^^ y.reverse := by
  apply BitVec.eq_of_getMsbD_eq
  intro i _
  simp only [BitVec.getMsbD_reverse, BitVec.getMsbD_xor, BitVec.getLsbD_xor]

theorem reverse_shiftLeft_one (x : Crc) : (x <<< 1).reverse = x.reverse >>> 1 := by
  apply BitVec.eq_of_getLsbD_eq
  intro i _
  rw [BitVec.getLsbD_reverse, BitVec.getLsbD_ushiftRight, BitVec.getLsbD_reverse, BitVec.getMsbD_shiftLeft, Nat.add_comm]

/-- The first bit out of the register is bit 0 of the reversed one. -/
theorem getLsbD_zero_reverse (x : Crc) : x.reverse.getLsbD 0 = x.msb := BitVec.getLsbD_reverse

/-- A byte that enters at the top enters the reversed register at the bottom, in reverse order. -/
theorem reverse_topByte (b : Byte) : (b.setWidth 32 <<< 24 : Crc).reverse = b.reverse.setWidth 32 := by
  apply BitVec.eq_of_getLsbD_eq
  intro i hi
  rw [BitVec.getLsbD_reverse, BitVec.getMsbD_shiftLeft, BitVec.getLsbD_setWidth, BitVec.getLsbD_reverse,
    BitVec.getMsbD_eq_getLsbD, BitVec.getMsbD_eq_getLsbD, BitVec.getLsbD_setWidth]
  by_cases hbyte : i < 8
  · have hin : i + 24 < 32 := by omega
    have hbit : 32 - 1 - (i + 24) = 8 - 1 - i := by omega
    simp [hi, hbyte, hin, hbit]
    omega
  · have hout : ¬i + 24 < 32 := by omega
    simp [hbyte, hout]

theorem reflectedBit_reverse (x : Crc) : reflectedBit x.reverse = (crcBit CrcCfg.isoHdlc x).reverse := by
  have hpoly : CrcCfg.isoHdlc.poly.reverse = 0xEDB88320#32 := by decide +kernel
  unfold reflectedBit crcBit
  rw [getLsbD_zero_reverse]
  split
  · rw [reverse_xor, reverse_shiftLeft_one, hpoly]
  · rw [reverse_shiftLeft_one]

theorem reflectedBits_reverse (n : Nat) (x : Crc) :
    reflectedBits n x.reverse = (crcBits CrcCfg.isoHdlc n x).reverse := by
  induction n generalizing x with
  | zero => rfl
  | succ n ih => rw [reflectedBits, reflectedBit_reverse, ih, crcBits]

/-- One byte through the reflected register. -/
theorem reflectedByte_reverse (x : Crc) (b : Byte) :
    reflectedBits 8 (x.reverse ^^^ b.setWidth 32) = (crcByte CrcCfg.isoHdlc x b).reverse := by
  have hb : b.setWidth 32 = (b.reverse.setWidth 32 <<< 24 : Crc).reverse := by
    rw [reverse_topByte, BitVec.reverse_reverse_eq]
  rw [hb, ← reverse_xor, reflectedBits_reverse]
  rfl

/-- Settles O13: the reflected register holds the reversed register after every byte, and `refout` reverses it at the end. -/
theorem reflectedCrcIsTheSameFunction : Obligations.ReflectedCrcIsTheSameFunction := by
  intro s
  have hinit : CrcCfg.isoHdlc.init.reverse = 0xFFFFFFFF#32 := by decide +kernel
  unfold crc32Reflected
  rw [← hinit, List.foldl_hom BitVec.reverse reflectedByte_reverse, hinit]
  rfl

/-! ### Two registers that differ stay different -/

/-- With the constant term in the generator, bit 0 after a turn tells which bit went out, so a turn loses nothing. -/
theorem crcBit_injective {c : CrcCfg} (hc : c.poly.getLsbD 0 = true) : Function.Injective (crcBit c) := by
  intro x y h
  have hout (z : Crc) : (crcBit c z).getLsbD 0 = z.msb := by
    unfold crcBit; split <;> simp [*]
  have hmsb : x.msb = y.msb := by rw [← hout x, ← hout y, h]
  have hshift : x <<< 1 = y <<< 1 := by
    unfold crcBit at h
    rw [hmsb] at h
    split at h
    · exact (BitVec.xor_left_inj _).mp h
    · exact h
  apply BitVec.eq_of_getMsbD_eq
  intro i _
  cases i with
  | zero => exact hmsb
  | succ i => rw [← BitVec.getMsbD_shiftLeft, ← BitVec.getMsbD_shiftLeft, hshift]

theorem crcBits_injective {c : CrcCfg} (hc : c.poly.getLsbD 0 = true) (n : Nat) : Function.Injective (crcBits c n) := by
  induction n with
  | zero => exact fun _ _ h => h
  | succ n ih => exact ih.comp (crcBit_injective hc)

theorem reverse_injective (n : Nat) : Function.Injective (BitVec.reverse : BitVec n → BitVec n) :=
  Function.LeftInverse.injective fun _ => BitVec.reverse_reverse_eq

/-- A byte can be read back from the place where it enters the register. -/
theorem topByte_injective : Function.Injective fun b : Byte => (b.setWidth 32 <<< 24 : Crc) := by
  intro b b' h
  have hnat := congrArg BitVec.toNat h
  have := b.isLt
  have := b'.isLt
  simp only [BitVec.toNat_shiftLeft, BitVec.toNat_setWidth, Nat.shiftLeft_eq] at hnat
  apply BitVec.eq_of_toNat_eq
  omega

/-- Different registers stay different over one byte. -/
theorem crcByte_injective_register {c : CrcCfg} (hc : c.poly.getLsbD 0 = true) (b : Byte) :
    Function.Injective fun reg => crcByte c reg b := fun _ _ h =>
  (BitVec.xor_left_inj _).mp (crcBits_injective hc 8 h)

/-- Different bytes make equal registers different. -/
theorem crcByte_injective_byte {c : CrcCfg} (hc : c.poly.getLsbD 0 = true) (reg : Crc) :
    Function.Injective (crcByte c reg) := by
  intro b b' h
  have hin := topByte_injective ((BitVec.xor_right_inj _).mp (crcBits_injective hc 8 h))
  split at hin
  · exact reverse_injective 8 hin
  · exact hin

/-- Different registers stay different over a byte sequence. -/
theorem foldl_crcByte_injective {c : CrcCfg} (hc : c.poly.getLsbD 0 = true) (s : List Byte) :
    Function.Injective fun reg => s.foldl (crcByte c) reg := by
  induction s with
  | nil => exact fun _ _ h => h
  | cons b s ih => exact ih.comp (crcByte_injective_register hc b)

/-- What `CRC32` makes of the final register keeps a difference. -/
theorem crcOutput_injective (c : CrcCfg) :
    Function.Injective fun reg : Crc => (if c.refout then reg.reverse else reg) ^^^ c.xorout := by
  intro x y h
  have h' := (BitVec.xor_left_inj _).mp h
  split at h'
  · exact reverse_injective 32 h'
  · exact h'

/-- Settles O14: the differing byte makes the registers differ, and neither the bytes after it nor the output undo that. -/
theorem oneByteChangeChangesTheCrc : Obligations.OneByteChangeChangesTheCrc := by
  refine ⟨by decide, fun c before after b b' hc hne h => hne ?_⟩
  have hreg := crcOutput_injective c h
  rw [List.foldl_append, List.foldl_append] at hreg
  exact crcByte_injective_byte hc _ (foldl_crcByte_injective hc after hreg)

end Sys2Proof.Machine
end

section
/-! Blobs and packets (rules R93 to R100): the fields of a blob, and how a packet is cut into blobs. -/

namespace Sys2Proof.Machine

/-- Settles O15: the fields follow each other in the order of `EncodeBlob`. -/
theorem blobLayoutAndSize : Obligations.BlobLayoutAndSize := by
  intro p payload hlen
  have hfield : payload.length ≤ 65535 := hlen.trans (cap_le p)
  refine ⟨encodeBlob_length p payload, by rw [encodeBlob_length]; omega, ?_, ?_, ?_⟩
  · rw [seqRead, List.drop_zero, encodeBlob_take_two, decodeLen_encodeLen _ hfield]
  · rw [seqRead, encodeBlob_drop_two, List.take_left]
  · rw [seqRead, encodeBlob_drop_covered, List.take_of_length_le (encodeCrc_length _ _).le, decodeCrc_encodeCrc, seqRead,
      List.drop_zero, encodeBlob_take_covered]

/-! ### The number of blobs -/

theorem ceilDiv_le_iff {a b k : Nat} (hb : 0 < b) : ceilDiv a b ≤ k ↔ a ≤ k * b := by
  obtain ⟨hcover, hleast⟩ := ceilDiv_spec a hb
  exact ⟨fun hk => hcover.trans (Nat.mul_le_mul_right b hk), hleast k⟩

theorem lt_ceilDiv_iff {a b k : Nat} (hb : 0 < b) : k < ceilDiv a b ↔ k * b < a := by
  rw [← not_le, ceilDiv_le_iff hb, not_le]

theorem nBlobs_apriori {p : Params} (hm : p.termMode = .apriori) (len : Nat) :
    nBlobs p len = max 1 (ceilDiv len p.maxBlobPayload) := by
  simp [nBlobs, hm]

theorem nBlobs_sentinel {p : Params} (hm : p.termMode = .sentinel) (len : Nat) :
    nBlobs p len = ceilDiv len p.maxBlobPayload + 1 := by
  simp [nBlobs, hm]

/-- The blobs of a packet have room for it, in both terminal conventions. -/
theorem le_nBlobs_mul_cap (p : Params) (len : Nat) : len ≤ nBlobs p len * p.maxBlobPayload := by
  rw [← ceilDiv_le_iff (cap_pos p)]
  cases hm : p.termMode with
  | apriori => rw [nBlobs_apriori hm]; omega
  | sentinel => rw [nBlobs_sentinel hm]; omega

/-! ### The slices -/

/-- A slice as the index range of rule R100. -/
theorem slice_eq_range (p : Params) (pkt : List Byte) (i : Nat) :
    slice p pkt i = (pkt.take (min ((i + 1) * p.maxBlobPayload) pkt.length)).drop (i * p.maxBlobPayload) := by
  rw [← List.take_take, List.take_length, List.drop_take, Nat.succ_mul, Nat.add_sub_cancel_left, slice]

/-- Every slice but the last that has bytes is full. -/
theorem slice_length_of_full {p : Params} {pkt : List Byte} {i : Nat}
    (h : i + 1 < ceilDiv pkt.length p.maxBlobPayload) : (slice p pkt i).length = p.maxBlobPayload := by
  rw [lt_ceilDiv_iff (cap_pos p), Nat.succ_mul] at h
  rw [slice_length]
  omega

/-- A slice that starts inside the packet has bytes, and not more than a blob holds. -/
theorem slice_length_bounds {p : Params} {pkt : List Byte} {i : Nat} (h : i < ceilDiv pkt.length p.maxBlobPayload) :
    1 ≤ (slice p pkt i).length ∧ (slice p pkt i).length ≤ p.maxBlobPayload := by
  have hcap := cap_pos p
  rw [lt_ceilDiv_iff hcap] at h
  rw [slice_length]
  omega

/-- From the end of the packet on a slice is empty. -/
theorem slice_past_end {p : Params} {pkt : List Byte} {i : Nat} (h : ceilDiv pkt.length p.maxBlobPayload ≤ i) :
    slice p pkt i = [] := by
  rw [ceilDiv_le_iff (cap_pos p)] at h
  rw [slice, List.drop_of_length_le h, List.take_nil]

/-- The last slice of a packet has the rest. -/
theorem slice_length_last {p : Params} {pkt : List Byte} {n : Nat} (hpos : 1 ≤ n)
    (hcover : pkt.length ≤ n * p.maxBlobPayload) :
    (slice p pkt (n - 1)).length = pkt.length - (n - 1) * p.maxBlobPayload := by
  obtain ⟨m, rfl⟩ := Nat.exists_eq_add_of_le' hpos
  rw [Nat.succ_mul] at hcover
  rw [slice_length, Nat.add_sub_cancel]
  omega

/-- Settles O16: the slices are index ranges that cover the packet, and the two conventions differ in what follows the last
slice with bytes. -/
theorem segmentationOfAPacket : Obligations.SegmentationOfAPacket := by
  intro p pkt hlen len cap d n
  have hcap : 0 < cap := cap_pos p
  have hcover : len ≤ n * cap := le_nBlobs_mul_cap p len
  obtain ⟨hpos, hmax⟩ : 1 ≤ n ∧ n ≤ 65536 := nBlobs_bounds p hlen
  refine ⟨ceilDiv_spec len hcap, fun hm => ?_, fun hm => ?_, slice_eq_range p pkt, ?_, rfl, hmax⟩
  · have hn : n = max 1 d := nBlobs_apriori hm len
    refine ⟨hn, fun i hi => slice_length_of_full (show i + 1 < d by omega), slice_length_last hpos hcover,
      fun hbytes => slice_length_bounds (show n - 1 < d from ?_), fun hempty => ?_⟩
    · have hd : 0 < d := (lt_ceilDiv_iff hcap).mpr (by omega)
      omega
    · have hd : d ≤ 0 := (ceilDiv_le_iff hcap).mpr (by omega)
      omega
  · exact ⟨nBlobs_sentinel hm len, fun i hi => slice_length_bounds hi, slice_past_end le_rfl⟩
  · rw [slices_flatten, List.take_of_length_le hcover]

end Sys2Proof.Machine
end

section
/-! A blob whose trailer is not the CRC of what stands before it (rules R98, R147 and R149). -/

namespace Sys2Proof.Machine

/-- Four bytes decode to the CRC value whose encoding they are, rule R94. -/
theorem eq_decodeCrc_iff (e : Endian) (c : Crc) {trailer : List Byte} (hlen : trailer.length = 4) :
    c = decodeCrc e trailer ↔ trailer = encodeCrc e c := by
  obtain ⟨b₀, b₁, b₂, b₃, rfl⟩ : ∃ b₀ b₁ b₂ b₃, trailer = [b₀, b₁, b₂, b₃] := List.length_eq_four.mp hlen
  constructor
  · rintro rfl
    exact (encodeCrc_decodeCrc e b₀ b₁ b₂ b₃).symm
  · intro h
    rw [h, decodeCrc_encodeCrc]

/-- A received blob is valid exactly when its trailer is the CRC of header and payload, rule R147. -/
theorem crcValid_iff_trailer {s : State} {payload trailer : List Byte} (hpayload : payload.length ≤ 65535)
    (hlen : trailer.length = 4) (hblob : s.rxBlob = encodeLen s.cfg.wireEndian payload.length ++ payload ++ trailer) :
    crcValid s = true ↔ trailer = encodeCrc s.cfg.wireEndian
      (crc32 s.cfg.crcCfg (encodeLen s.cfg.wireEndian payload.length ++ payload)) := by
  have hheader : s.rxBlob.take 2 = encodeLen s.cfg.wireEndian payload.length := by
    rw [hblob, List.append_assoc, List.take_left' (encodeLen_length _ _)]
  have hcovered : (encodeLen s.cfg.wireEndian payload.length ++ payload).length = 2 + payload.length := by simp
  rw [crcValid_iff, hheader, decodeLen_encodeLen _ hpayload, hblob, List.take_left' hcovered, List.drop_left' hcovered,
    List.take_of_length_le hlen.le, eq_decodeCrc_iff _ _ hlen]

/-- Leaving `CONNECTED` delivers nothing, rule R196. -/
theorem not_isCbPacket_of_mem_leaveOutputs {s : State} {o : Output} (h : o ∈ leaveOutputs s) : isCbPacket o = false := by
  unfold leaveOutputs at h
  split at h <;> split at h <;> revert o <;> decide

/-- The outputs of a CRC fault, rule R149: the report, and at the limit those of leaving `CONNECTED`. -/
theorem emitted_rxFault_crc (s : State) : ∃ o, emitted s (rxFault .crcMismatch s) = .cbFault .crcMismatch :: o ∧
    ∀ x ∈ o, isCbPacket x = false := by
  rcases Nat.lt_or_ge (s.crcFaultCnt + 1) s.cfg.crcFaultLimit with hbelow | hlimit
  · rw [rxFault_crc_below hbelow]
    exact ⟨[], List.drop_left, by simp⟩
  · obtain ⟨u, hu, hout⟩ : ∃ u, rxFault .crcMismatch s = afterLeaving .disconnecting u ∧
        u.out = s.out ++ [.cbFault .crcMismatch] := ⟨_, rxFault_crc_limit hlimit, rfl⟩
    refine ⟨leaveOutputs u, ?_, fun x => not_isCbPacket_of_mem_leaveOutputs⟩
    rw [hu, emitted, afterLeaving, hout, List.append_assoc, List.drop_left]
    rfl

/-- A CRC fault sets its flag and empties the reassembly, rule R149. -/
theorem rxFault_crc_clears (s : State) : flagSet .crc (rxFault .crcMismatch s) = true ∧
    (rxFault .crcMismatch s).rxPkt = [] ∧ (rxFault .crcMismatch s).rxBusy = false := by
  rcases Nat.lt_or_ge (s.crcFaultCnt + 1) s.cfg.crcFaultLimit with hbelow | hlimit
  · rw [rxFault_crc_below hbelow]
    refine ⟨?_, rfl, rfl⟩
    simp [flagSet, afterReceiveFault, errorFlag, flagMask, flagBit]
  · rw [rxFault_crc_limit hlimit]
    refine ⟨?_, rfl, rfl⟩
    simp only [flagSet, afterLeaving, abortFlags]
    split <;> simp [flagMask, flagBit]

/-- Settles O27: a wrong trailer is a CRC mismatch, and that is the one fault whose outputs and effect are asked for. -/
theorem changedTrailerIsNeverDelivered : Obligations.ChangedTrailerIsNeverDelivered := by
  intro b s payload trailer hon hs hr hcap hlen ⟨hblob, hwrong⟩
  have hinvalid : ¬crcValid { s with rxBlob := s.rxBlob ++ [b], rxRemaining := 0#17 } = true := by
    rwa [crcValid_iff_trailer (hcap.trans (cap_le s.cfg)) hlen hblob]
  refine ⟨rxFault .crcMismatch s, ?_, ?_⟩
  · rw [exec_rxb, receiveByte_body b hon hs, bodyByte_last b hr, blobComplete, if_neg hinvalid, rxFault_forgets_blob]
  · obtain ⟨o, hemitted, hnone⟩ := emitted_rxFault_crc s
    obtain ⟨hflag, hpkt, hbusy⟩ := rxFault_crc_clears s
    rw [hemitted]
    exact ⟨List.mem_cons_self, hflag, hpkt, hbusy, List.forall_mem_cons.mpr ⟨rfl, hnone⟩⟩

end Sys2Proof.Machine
end

section
/-! The round trip of rule R101: the blobs of a packet, fed to the receive path byte by byte, deliver the packet. -/

namespace Sys2Proof.Machine

/-- The state in which `k` blobs of the packet have been received, of a run that began in `s`. -/
def receivedBlobs (pkt : List Byte) (s : State) (k cnt : Nat) (busy : Bool) : State :=
  { s with crcFaultCnt := cnt, rxPkt := pkt.take (k * s.cfg.maxBlobPayload), rxBusy := busy }

/-- What rule R101 asks of the state in which the packet's first byte arrives. -/
structure ReadyForPacket (pkt : List Byte) (s : State) : Prop where
  fits : pkt.length ≤ s.cfg.maxPacket
  chanEn : s.chanEn = true
  rxState : s.rxState = .expectHeader
  rxBusy : s.rxBusy = false
  rxBlob : s.rxBlob = []
  rxPkt : s.rxPkt = []
  rxRemaining : s.rxRemaining = 0#17
  poolAvail : s.poolAvail = true
  rxTotal : s.cfg.termMode = .apriori → s.rxTotal.toNat = pkt.length

/-- A slice extends what the slices before it have of the packet. -/
theorem take_append_slice (p : Params) (pkt : List Byte) (k : Nat) :
    pkt.take (k * p.maxBlobPayload) ++ slice p pkt k = pkt.take ((k + 1) * p.maxBlobPayload) := by
  rw [slice, Nat.succ_mul, List.take_add]

/-- No slice of the announced packet fails the length tests, rule R144. -/
theorem lengthRejected_slice {pkt : List Byte} {s : State} (h : ReadyForPacket pkt s) (k cnt : Nat) (busy : Bool) :
    lengthRejected (receivedBlobs pkt s k cnt busy) (slice s.cfg pkt k).length = false := by
  have hlen : (pkt.take (k * s.cfg.maxBlobPayload)).length + (slice s.cfg pkt k).length ≤ pkt.length := by
    rw [← List.length_append, take_append_slice]
    exact List.length_take_le' _ _
  have hfits := h.fits
  have hcap : (slice s.cfg pkt k).length ≤ s.cfg.maxBlobPayload := by rw [slice_length]; omega
  rw [← Bool.not_eq_true, lengthRejected_iff]
  rintro (hlong | ⟨hm, hlong⟩ | ⟨-, hlong⟩) <;> simp only [receivedBlobs] at hlong
  · omega
  · have := h.rxTotal hm
    omega
  · omega

/-- The packet is complete with the last of its blobs and not before, rules R100 and R104. -/
theorem packetComplete_iff_last {pkt : List Byte} {t : State} {k : Nat} (hk : k < nBlobs t.cfg pkt.length)
    (hpkt : t.rxPkt = pkt.take ((k + 1) * t.cfg.maxBlobPayload))
    (htotal : t.cfg.termMode = .apriori → t.rxTotal.toNat = pkt.length) :
    packetComplete t (slice t.cfg pkt k).length = true ↔ k + 1 = nBlobs t.cfg pkt.length := by
  have hcap := cap_pos t.cfg
  unfold packetComplete
  cases hm : t.cfg.termMode with
  | apriori =>
    rw [nBlobs_apriori hm] at hk ⊢
    have hdone : ceilDiv pkt.length t.cfg.maxBlobPayload ≤ k + 1 ↔ pkt.length ≤ (k + 1) * t.cfg.maxBlobPayload :=
      ceilDiv_le_iff hcap
    simp only [decide_eq_true_eq]
    rw [hpkt, htotal hm, List.length_take]
    omega
  | sentinel =>
    rw [nBlobs_sentinel hm] at hk ⊢
    have hdone : ceilDiv pkt.length t.cfg.maxBlobPayload ≤ k ↔ pkt.length ≤ k * t.cfg.maxBlobPayload :=
      ceilDiv_le_iff hcap
    simp only [decide_eq_true_eq]
    rw [slice_length]
    omega

/-- Delivery after all blobs of the packet leaves the state as it was before the first. -/
theorem deliver_receivedBlobs {pkt : List Byte} {s : State} (h : ReadyForPacket pkt s) :
    deliver (receivedBlobs pkt s (nBlobs s.cfg pkt.length) 0 true) =
      { s with crcFaultCnt := 0, out := s.out ++ [.cbPacket s.cfg.connectorId pkt] } := by
  simp only [deliver, emit, receivedBlobs, List.take_of_length_le (le_nBlobs_mul_cap s.cfg pkt.length), h.rxPkt, h.rxBusy]

/-- The bytes of the next blob: nothing is emitted before the last of them, and with it the blob is received or the packet
delivered. -/
theorem runAll_nextBlob {pkt : List Byte} {s : State} (h : ReadyForPacket pkt s) {k : Nat}
    (hk : k < nBlobs s.cfg pkt.length) (cnt : Nat) (busy : Bool) :
    (∃ t, runAll (rxBytes (encodeBlob s.cfg (slice s.cfg pkt k)).dropLast) (receivedBlobs pkt s k cnt busy) = .next t ∧
      t.out = s.out) ∧
    runAll (rxBlobOps s.cfg (slice s.cfg pkt k)) (receivedBlobs pkt s k cnt busy) = .next
      (if k + 1 = nBlobs s.cfg pkt.length then
        { s with crcFaultCnt := 0, out := s.out ++ [.cbPacket s.cfg.connectorId pkt] }
      else receivedBlobs pkt s (k + 1) 0 true) := by
  have hcap : (slice s.cfg pkt k).length ≤ s.cfg.maxBlobPayload := by rw [slice_length]; omega
  obtain ⟨hquiet, hrun⟩ := runAll_rxBlob (s := receivedBlobs pkt s k cnt busy) h.chanEn h.rxState h.rxBlob
    (.inr h.poolAvail) hcap (lengthRejected_slice h k cnt busy)
  have hnext : { receivedBlobs pkt s k cnt busy with
      crcFaultCnt := 0, rxPkt := (receivedBlobs pkt s k cnt busy).rxPkt ++ slice s.cfg pkt k, rxBlob := [],
      rxRemaining := 0#17, rxState := .expectHeader, rxBusy := true } = receivedBlobs pkt s (k + 1) 0 true := by
    simp only [receivedBlobs, take_append_slice, h.rxBlob, h.rxRemaining, h.rxState]
  refine ⟨hquiet, hrun.trans (congrArg Host.Outcome.next ?_)⟩
  rw [hnext]
  have hlast := packetComplete_iff_last (t := receivedBlobs pkt s (k + 1) 0 true) hk rfl h.rxTotal
  by_cases hn : k + 1 = nBlobs s.cfg pkt.length
  · rw [if_pos hn, ← deliver_receivedBlobs h, ← hn]
    exact if_pos (hlast.mpr hn)
  · rw [if_neg hn]
    exact if_neg fun hc => hn (hlast.mp hc)

/-- The blobs up to the last but one are received one after another. -/
theorem runAll_firstBlobs {pkt : List Byte} {s : State} (h : ReadyForPacket pkt s) {k : Nat}
    (hk : k < nBlobs s.cfg pkt.length) :
    ∃ cnt busy, runAll (rxBytes (((List.range k).map fun i => encodeBlob s.cfg (slice s.cfg pkt i)).flatten)) s =
      .next (receivedBlobs pkt s k cnt busy) := by
  induction k with
  | zero =>
    have hstart : receivedBlobs pkt s 0 s.crcFaultCnt s.rxBusy = s := by
      simp only [receivedBlobs, Nat.zero_mul, List.take_zero, ← h.rxPkt]
    exact ⟨s.crcFaultCnt, s.rxBusy, by rw [hstart]; rfl⟩
  | succ k ih =>
    obtain ⟨cnt, busy, hrun⟩ := ih (by omega)
    obtain ⟨-, hblob⟩ := runAll_nextBlob h (k := k) (by omega) cnt busy
    refine ⟨0, true, ?_⟩
    rw [List.range_succ, List.map_append, List.flatten_append, rxBytes, List.map_append]
    refine (runAll_append hrun _).trans ?_
    rw [if_neg hk.ne] at hblob
    simpa [rxBlobOps, rxBytes] using hblob

/-- A connected block that holds no reassembly and finds a Block free is ready for a packet of the announced length. -/
theorem Inv.readyForPacket {pkt : List Byte} {s : State} (h : Inv s) (hfits : pkt.length ≤ s.cfg.maxPacket)
    (hon : s.chanEn = true) (hs : s.rxState = .expectHeader) (hbusy : s.rxBusy = false) (hpool : s.poolAvail = true)
    (htotal : s.cfg.termMode = .apriori → s.rxTotal.toNat = pkt.length) : ReadyForPacket pkt s where
  fits := hfits
  chanEn := hon
  rxState := hs
  rxBusy := hbusy
  rxBlob := by
    by_contra hne
    exact Bool.false_ne_true (hbusy.symm.trans (h.rx_held (.inl hne)))
  rxPkt := by
    by_contra hne
    exact Bool.false_ne_true (hbusy.symm.trans (h.rx_held (.inr hne)))
  rxRemaining := (h.rx_header hs).2
  poolAvail := hpool
  rxTotal := htotal

/-- Settles O28: all blobs but the last are received, by induction on their number, and the last one delivers. -/
theorem segmentedPacketIsReassembled : Obligations.SegmentedPacketIsReassembled := by
  intro s pkt hinv hfits hon hs hbusy hpool htotal
  have h := hinv.readyForPacket hfits hon hs hbusy hpool htotal
  obtain ⟨k, hn⟩ := Nat.exists_eq_add_of_le' (nBlobs_bounds s.cfg hfits).1
  have hk : k < nBlobs s.cfg pkt.length := by omega
  obtain ⟨cnt, busy, hfirst⟩ := runAll_firstBlobs h hk
  obtain ⟨⟨t, ht, hout⟩, hlast⟩ := runAll_nextBlob h hk cnt busy
  rw [if_pos hn.symm] at hlast
  have hwire : wireImage s.cfg pkt = ((List.range k).map fun i => encodeBlob s.cfg (slice s.cfg pkt i)).flatten ++
      encodeBlob s.cfg (slice s.cfg pkt k) := by
    simp [wireImage, packetBlobs, hn, List.range_succ]
  have hblob : encodeBlob s.cfg (slice s.cfg pkt k) ≠ [] := List.ne_nil_of_length_pos (by simp)
  rw [hwire, List.dropLast_append_of_ne_nil hblob]
  simp only [rxBytes, List.map_append]
  exact ⟨(runAll_append hfirst _).trans hlast, t, (runAll_append hfirst _).trans ht, hout⟩

end Sys2Proof.Machine
end

section
/-! The send path (rules R121 and R123): one equation per case of `SEND` and of `WRDONE`, and their results. -/

namespace Sys2Proof

/-- The word of an operation whose operand fills `imm` (rule R105). -/
theorem eventWord_ofNat (op : Byte) {n : Nat} (h : n < 65536) :
    eventWord op (BitVec.ofNat 16 n) = BitVec.ofNat 32 (op.toNat * 2 ^ 24) + BitVec.ofNat 32 n := by
  rw [eventWord, BitVec.toNat_ofNat, Nat.mod_eq_of_lt h, BitVec.ofNat_add]

end Sys2Proof

namespace Sys2Proof.Machine

/-! ### The packet operand -/

theorem sendOperand_eq (len : Nat) (s : State) :
    sendOperand len s = (List.range len).map fun k => Memory.read s.txbuf k := by
  simp only [sendOperand, Memory.readBytes, Nat.zero_add]

@[simp] theorem sendOperand_length (len : Nat) (s : State) : (sendOperand len s).length = len := readBytes_length _ _ _

/-! ### The four cases of `SEND` -/

theorem sendPacket_tooLong {len : Nat} {s : State} (h : s.cfg.maxPacket < len) :
    sendPacket len s = rejectSend .lengthOutOfRange s := if_pos h

theorem sendPacket_channelOff {len : Nat} {s : State} (hfits : len ≤ s.cfg.maxPacket) (hoff : s.chanEn = false) :
    sendPacket len s = rejectSend .channelAborted s := by
  rw [sendPacket, if_neg hfits.not_gt, if_pos hoff]

theorem sendPacket_noSlot {len : Nat} {s : State} (hfits : len ≤ s.cfg.maxPacket) (hon : s.chanEn = true)
    (hslot : s.txState = .sending ∨ s.poolAvail = false) : sendPacket len s = rejectSend .outOfMemory s := by
  rw [sendPacket, if_neg hfits.not_gt, if_neg (by simp [hon]), if_pos hslot]

theorem sendPacket_accepted {len : Nat} {s : State} (hfits : len ≤ s.cfg.maxPacket) (hon : s.chanEn = true)
    (hidle : s.txState = .idle) (hpool : s.poolAvail = true) : sendPacket len s = acceptSend (sendOperand len s) s := by
  rw [sendPacket, if_neg hfits.not_gt, if_neg (by simp [hon]), if_neg (by simp [hidle, hpool])]

/-- Once what `SEND` can do: reject, or accept on an idle send path. -/
theorem sendPacket_cases (len : Nat) (s : State) :
    (∃ k, sendPacket len s = rejectSend k s) ∨
    (s.txState = .idle ∧ sendPacket len s = acceptSend (sendOperand len s) s) := by
  unfold sendPacket
  split
  · exact .inl ⟨_, rfl⟩
  · split
    · exact .inl ⟨_, rfl⟩
    · split
      · exact .inl ⟨_, rfl⟩
      case isFalse hslot =>
        refine .inr ⟨?_, rfl⟩
        cases hs : s.txState with
        | idle => rfl
        | sending => exact absurd (.inl hs) hslot

/-- Settles O17: the word is the encoding of `SEND len`, and each case of the rule has its equation. -/
theorem sendResult : Obligations.SendResult := by
  intro len s
  refine ⟨fun hlen => ?_, fun hlong => ?_, fun hfits hoff => ?_, fun hfits hon hslot => ?_,
    fun hfits hon hidle hpool => ?_⟩
  · exact (congrArg decode (eventWord_ofNat 0x01#8 hlen)).symm.trans
      (decodeOfEncodeIsTheOperation (.send len) (decide_eq_true hlen))
  · rw [exec_send, sendPacket_tooLong hlong]; rfl
  · rw [exec_send, sendPacket_channelOff hfits hoff]; rfl
  · rw [exec_send, sendPacket_noSlot hfits hon hslot]; rfl
  · dsimp only
    rw [exec_send, sendPacket_accepted hfits hon hidle hpool, acceptSend, sendOperand_length, sendOperand_eq]; rfl

/-! ### The three cases of `WRDONE` -/

theorem writeDone_ignored {s : State} (hidle : s.txState = .idle) : writeDone s = s := by
  rw [writeDone, if_neg (by simp [hidle])]

theorem writeDone_last {s : State} (hs : s.txState = .sending) (hlast : s.txIdx.toNat + 1 = s.txNblobs.toNat) :
    writeDone s =
      emit .cbSendDone { s with txState := .idle, txPkt := [], txIdx := 0#17, txNblobs := 0#17 } := by
  rw [writeDone, if_pos hs]
  exact if_pos hlast

theorem writeDone_more {s : State} (hs : s.txState = .sending) (hmore : s.txIdx.toNat + 1 ≠ s.txNblobs.toNat) :
    writeDone s = emit (.chWrite (encodeBlob s.cfg (slice s.cfg s.txPkt (s.txIdx.toNat + 1))))
      { s with txIdx := BitVec.ofNat 17 (s.txIdx.toNat + 1) } := by
  rw [writeDone, if_pos hs]
  exact if_neg hmore

/-- Settles O18: each case of the rule has its equation. -/
theorem wrdoneResult : Obligations.WrdoneResult := by
  refine ⟨by decide, fun s => ⟨fun hidle => ?_, fun hs hlast => ?_, fun hs hmore => ?_⟩⟩
  · rw [exec_wrdone, writeDone_ignored hidle]
  · rw [exec_wrdone, writeDone_last hs hlast]; rfl
  · rw [exec_wrdone, writeDone_more hs hmore]; rfl

end Sys2Proof.Machine
end

section
/-! The registers of the two paths (rules R121 and R141, conflict C1): `SEND` and `WRDONE` leave the receive path alone,
`RXB` leaves the send path alone unless it tears the connection down, and `RXLEN` leaves both alone. -/

namespace Sys2Proof.Machine

/-- The four send registers, rule R20. -/
def sendPath (s : State) : TxState × List Byte × BitVec 17 × BitVec 17 := (s.txState, s.txPkt, s.txIdx, s.txNblobs)

/-- The reassembly registers, rule R20. -/
def receivePath (s : State) : RxState × List Byte × BitVec 17 × List Byte × Bool × Nat :=
  (s.rxState, s.rxBlob, s.rxRemaining, s.rxPkt, s.rxBusy, s.crcFaultCnt)

theorem sendPath_eq_iff {s t : State} : sendPath t = sendPath s ↔
    t.txState = s.txState ∧ t.txPkt = s.txPkt ∧ t.txIdx = s.txIdx ∧ t.txNblobs = s.txNblobs := by
  simp [sendPath]

theorem receivePath_eq_iff {s t : State} : receivePath t = receivePath s ↔
    t.rxState = s.rxState ∧ t.rxBlob = s.rxBlob ∧ t.rxRemaining = s.rxRemaining ∧ t.rxPkt = s.rxPkt ∧
      t.rxBusy = s.rxBusy ∧ t.crcFaultCnt = s.crcFaultCnt := by
  simp [receivePath]

theorem receivePath_sendPacket (len : Nat) (s : State) : receivePath (sendPacket len s) = receivePath s := by
  rcases sendPacket_cases len s with ⟨k, h⟩ | ⟨-, h⟩ <;> rw [h] <;> rfl

theorem receivePath_writeDone (s : State) : receivePath (writeDone s) = receivePath s := by
  unfold writeDone
  split
  · dsimp only; split <;> rfl
  · rfl

theorem receivePath_setExpectedLength (total : Nat) (s : State) :
    receivePath (setExpectedLength total s) = receivePath s := by
  unfold setExpectedLength; split <;> rfl

theorem sendPath_setExpectedLength (total : Nat) (s : State) :
    sendPath (setExpectedLength total s) = sendPath s := by
  unfold setExpectedLength; split <;> rfl

/-- Of all that a byte can do, only the persistent CRC fault reaches the send path, rule R149. -/
theorem sendPath_receiveByte {b : Byte} {s : State} (h : ¬persistentCrcFault b s) :
    sendPath (receiveByte b s) = sendPath s := by
  rcases receiveByte_cases b s with
    ⟨ht, -⟩ | ⟨-, -, ⟨ht, -⟩ | ht | ht | ht⟩ | ⟨-, -, ⟨-, ht | ht | ⟨pkt, ht | ht⟩⟩ | ⟨hp, -⟩⟩
  case inr.inr.inr => exact absurd hp h
  all_goals exact (congrArg sendPath ht).trans rfl

/-- Settles O57: each operation named keeps the registers of the other path, `RXLEN` those of both. -/
theorem sendAndReceivePathsAreIndependent : Obligations.SendAndReceivePathsAreIndependent := by
  intro i s t h
  refine ⟨fun hi => receivePath_eq_iff.mp ?_, fun hi => sendPath_eq_iff.mp ?_⟩
  · obtain ⟨len, rfl⟩ | rfl | ⟨total, rfl⟩ := hi <;> cases h
    · exact receivePath_sendPacket len s
    · exact receivePath_writeDone s
    · exact receivePath_setExpectedLength total s
  · obtain ⟨total, rfl⟩ | ⟨b, rfl, hb⟩ := hi <;> cases h
    · exact sendPath_setExpectedLength total s
    · exact sendPath_receiveByte hb

end Sys2Proof.Machine
end

section
/-! A send that nothing aborts (rule R127): the blobs of the packet leave in order, one per completed write. -/

namespace Sys2Proof.Machine

/-- The send of `pkt` accepted in `s`, `k` of its writes completed and blob `k` handed to the channel. -/
def writesDone (pkt : List Byte) (s : State) (k : Nat) : State :=
  { s with
    txState := .sending, txPkt := pkt, txIdx := BitVec.ofNat 17 k,
    txNblobs := BitVec.ofNat 17 (nBlobs s.cfg pkt.length),
    out := s.out ++ ((List.range (k + 1)).map fun i => encodeBlob s.cfg (slice s.cfg pkt i)).map .chWrite }

theorem acceptSend_eq (pkt : List Byte) (s : State) : acceptSend pkt s = writesDone pkt s 0 := rfl

theorem writesDone_txIdx {pkt : List Byte} {s : State} {k : Nat} (hfits : pkt.length ≤ s.cfg.maxPacket)
    (hk : k < nBlobs s.cfg pkt.length) : (writesDone pkt s k).txIdx.toNat = k := by
  have hmax := (nBlobs_bounds s.cfg hfits).2
  exact (BitVec.toNat_ofNat k 17).trans (Nat.mod_eq_of_lt (by omega))

theorem writesDone_txNblobs {pkt : List Byte} {s : State} (hfits : pkt.length ≤ s.cfg.maxPacket) (k : Nat) :
    (writesDone pkt s k).txNblobs.toNat = nBlobs s.cfg pkt.length := by
  have hmax := (nBlobs_bounds s.cfg hfits).2
  exact (BitVec.toNat_ofNat _ 17).trans (Nat.mod_eq_of_lt (by omega))

/-- The completed write of a blob that is not the last hands over the next. -/
theorem writeDone_writesDone {pkt : List Byte} {s : State} {k : Nat} (hfits : pkt.length ≤ s.cfg.maxPacket)
    (hk : k + 1 < nBlobs s.cfg pkt.length) : writeDone (writesDone pkt s k) = writesDone pkt s (k + 1) := by
  have hidx := writesDone_txIdx hfits (show k < nBlobs s.cfg pkt.length by omega)
  have hcount := writesDone_txNblobs hfits k
  rw [writeDone_more rfl (by omega), hidx]
  simp [writesDone, emit, List.range_succ (n := k + 1)]

/-- The completed write of the last blob ends the send. -/
theorem writeDone_writesDone_last {pkt : List Byte} {s : State} {k : Nat} (hfits : pkt.length ≤ s.cfg.maxPacket)
    (hidle : s.txState = .idle) (hk : k + 1 = nBlobs s.cfg pkt.length) : writeDone (writesDone pkt s k) =
      { s with txPkt := [], txIdx := 0#17, txNblobs := 0#17,
               out := s.out ++ (packetBlobs s.cfg pkt).map .chWrite ++ [.cbSendDone] } := by
  have hidx := writesDone_txIdx hfits (show k < nBlobs s.cfg pkt.length by omega)
  have hcount := writesDone_txNblobs hfits k
  rw [writeDone_last rfl (by omega)]
  simp only [writesDone, emit, packetBlobs, ← hk, hidle]

/-- The `WRDONE`s of an accepted send up to the last but one. -/
theorem runAll_firstWrites {pkt : List Byte} {s : State} {k : Nat} (hfits : pkt.length ≤ s.cfg.maxPacket)
    (hk : k < nBlobs s.cfg pkt.length) : runAll (wrdoneOps k) (acceptSend pkt s) = .next (writesDone pkt s k) := by
  induction k with
  | zero => exact congrArg Host.Outcome.next (acceptSend_eq pkt s)
  | succ k ih =>
    have hsplit : wrdoneOps (k + 1) = wrdoneOps k ++ [.wrdone] := List.replicate_succ'
    rw [hsplit, runAll_append (ih (by omega))]
    exact congrArg Host.Outcome.next (writeDone_writesDone hfits hk)

/-- All `WRDONE`s of an accepted send. -/
theorem runAll_allWrites {pkt : List Byte} {s : State} (hfits : pkt.length ≤ s.cfg.maxPacket)
    (hidle : s.txState = .idle) :
    runAll (wrdoneOps (nBlobs s.cfg pkt.length)) (acceptSend pkt s) = .next
      { s with txPkt := [], txIdx := 0#17, txNblobs := 0#17,
               out := s.out ++ (packetBlobs s.cfg pkt).map .chWrite ++ [.cbSendDone] } := by
  obtain ⟨k, hn⟩ := Nat.exists_eq_add_of_le' (nBlobs_bounds s.cfg hfits).1
  have hsplit : wrdoneOps (nBlobs s.cfg pkt.length) = wrdoneOps k ++ [.wrdone] := by
    rw [hn]; exact List.replicate_succ'
  rw [hsplit, runAll_append (runAll_firstWrites hfits (by omega))]
  exact congrArg Host.Outcome.next (writeDone_writesDone_last hfits hidle hn.symm)

/-- The bytes on the wire after these writes and the report. -/
theorem wireOut_of_writes {s t : State} {blobs : List (List Byte)}
    (h : t.out = s.out ++ blobs.map .chWrite ++ [.cbSendDone]) : wireOut t = wireOut s ++ blobs.flatten := by
  simp [wireOut, h, List.flatMap_map]

/-- Settles O19: `SEND` is accepted with the packet that `TXBUF` holds, and its `WRDONE`s hand over the blobs. -/
theorem unabortedSendWritesItsWireImage : Obligations.UnabortedSendWritesItsWireImage := by
  intro len s hfits hon hidle hpool pkt
  have hlen : pkt.length = len := sendOperand_length len s
  have hwrites := runAll_allWrites (hlen.trans_le hfits) hidle
  rw [hlen] at hwrites
  refine ⟨_, ?_, rfl, wireOut_of_writes rfl⟩
  rw [runAll, exec_send, sendPacket_accepted hfits hon hidle hpool]
  exact hwrites

end Sys2Proof.Machine
end

section
/-! The reports of a send (rule R127 item 1). The sends reported and the one in flight are counted together: an operation
other than `SEND` and `RESET` leaves that number as it is, so that it reports a send exactly when it ends one. -/

namespace Sys2Proof.Machine

/-- The sends reported so far, and the one in flight. -/
def sendAccount (s : State) : Nat := s.out.countP isSendReport + (if s.txState = .sending then 1 else 0)

section

variable {s t : State} {os : List Output}

theorem sendAccount_append (hout : t.out = s.out ++ os) :
    sendAccount t = s.out.countP isSendReport + os.countP isSendReport + (if t.txState = .sending then 1 else 0) := by
  rw [sendAccount, hout, List.countP_append]

/-- The send goes on, or there is none, and nothing is reported. -/
theorem sendAccount_keep (hs : t.txState = s.txState) (hout : t.out = s.out ++ os) (hos : os.countP isSendReport = 0) :
    sendAccount t = sendAccount s := by
  rw [sendAccount_append hout, hos, hs, Nat.add_zero, sendAccount]

/-- A send that was in flight ends and is reported, and nothing else is. -/
theorem sendAccount_end (ht : t.txState = .idle) (hout : t.out = s.out ++ os)
    (hos : os.countP isSendReport = if s.txState = .sending then 1 else 0) : sendAccount t = sendAccount s := by
  rw [sendAccount_append hout, hos, ht]
  rfl

end

/-! ### The shared procedures -/

theorem sendAccount_goIdle (s : State) : sendAccount (goIdle s) = sendAccount s := by
  rw [goIdle_eq]
  refine sendAccount_keep rfl rfl ?_
  split <;> rfl

/-- Leaving `CONNECTED` reports a send that was in flight, rule R196. -/
theorem countP_leaveOutputs (s : State) :
    (leaveOutputs s).countP isSendReport = if s.txState = .sending then 1 else 0 := by
  unfold leaveOutputs
  split <;> split <;> rfl

theorem sendAccount_afterLeaving (c : ConnState) (s : State) : sendAccount (afterLeaving c s) = sendAccount s :=
  sendAccount_end (sendCleared_txState s) rfl (countP_leaveOutputs s)

/-- A transaction boundary reports a send that was in flight, rule R170. -/
theorem countP_boundaryOutputs (s : State) :
    (boundaryOutputs s).countP isSendReport = if s.txState = .sending then 1 else 0 := by
  unfold boundaryOutputs
  split <;> split <;> rfl

theorem sendAccount_endTransaction (s : State) : sendAccount (endTransaction s) = sendAccount s := by
  rw [endTransaction_eq]
  exact sendAccount_end (sendCleared_txState s) rfl (countP_boundaryOutputs s)

/-! ### The operations -/

theorem sendAccount_writeDone (s : State) : sendAccount (writeDone s) = sendAccount s := by
  cases hs : s.txState with
  | idle => rw [writeDone_ignored hs]
  | sending =>
    by_cases hlast : s.txIdx.toNat + 1 = s.txNblobs.toNat
    · rw [writeDone_last hs hlast]; exact sendAccount_end rfl rfl (if_pos hs).symm
    · rw [writeDone_more hs hlast]; exact sendAccount_keep rfl rfl rfl

theorem sendAccount_setExpectedLength (total : Nat) (s : State) :
    sendAccount (setExpectedLength total s) = sendAccount s := by
  unfold setExpectedLength
  split
  · exact sendAccount_keep rfl rfl rfl
  · rfl

theorem sendAccount_receiveByte (b : Byte) (s : State) : sendAccount (receiveByte b s) = sendAccount s := by
  have hfault : ∀ k, sendAccount (afterReceiveFault k s) = sendAccount s := fun _ => sendAccount_keep rfl rfl rfl
  rcases receiveByte_cases b s with
    ⟨h, -⟩ | ⟨-, -, ⟨h, -⟩ | h | h | h⟩ | ⟨-, -, ⟨-, h | h | ⟨pkt, h | h⟩⟩ | ⟨-, h⟩⟩ <;> rw [h]
  case inr.inl.inl | inr.inl.inr.inl | inr.inr.inl.inr.inl => exact hfault _
  case inr.inr.inl.inr.inr.inr => exact sendAccount_keep rfl rfl rfl
  case inr.inr.inr => exact (sendAccount_afterLeaving _ _).trans (hfault _)
  all_goals rfl

theorem sendAccount_contactMade (s : State) : sendAccount (contactMade s) = sendAccount s := by
  unfold contactMade
  dsimp only
  split
  · exact sendAccount_keep (os := [.probe, .tmrArm .det]) rfl (by simp) rfl
  · rfl

theorem sendAccount_contactLost (s : State) : sendAccount (contactLost s) = sendAccount s := by
  unfold contactLost
  dsimp only
  split
  case h_1 => rfl
  case h_4 => rw [sendAccount_goIdle, leaveConnected_eq, sendAccount_afterLeaving]; rfl
  all_goals rw [sendAccount_goIdle]; rfl

theorem sendAccount_partnerPresent (s : State) : sendAccount (partnerPresent s) = sendAccount s := by
  unfold partnerPresent
  split
  · exact sendAccount_keep (os := [.negStart, .tmrArm .neg]) rfl (by simp) rfl
  · rfl

theorem sendAccount_orientationFound (o : Orientation) (s : State) :
    sendAccount (orientationFound o s) = sendAccount s := by
  unfold orientationFound
  split
  · exact sendAccount_keep (os := [.tmrCancel, .cbState o true]) rfl (by simp) rfl
  · rfl

theorem sendAccount_probeAgain (s : State) : sendAccount (probeAgain s) = sendAccount s :=
  sendAccount_keep rfl (probeAgain_out s) rfl

theorem sendAccount_detectTimeout (s : State) : sendAccount (detectTimeout s) = sendAccount s := by
  unfold detectTimeout
  split
  · dsimp only
    split
    · rw [sendAccount_probeAgain]; rfl
    · split
      · rw [sendAccount_probeAgain]; rfl
      · rw [sendAccount_goIdle]; rfl
  · rfl

theorem sendAccount_negotiateTimeout (s : State) : sendAccount (negotiateTimeout s) = sendAccount s := by
  unfold negotiateTimeout
  split
  · rw [sendAccount_goIdle]; rfl
  · rfl

theorem sendAccount_disconnect (s : State) : sendAccount (disconnect s) = sendAccount s := by
  rw [disconnect_eq]
  split
  · exact sendAccount_afterLeaving _ s
  · rfl

theorem sendAccount_teardownDone (s : State) : sendAccount (teardownDone s) = sendAccount s := by
  unfold teardownDone
  split
  · exact sendAccount_goIdle s
  · rfl

/-- Every operation but `SEND`, which may start a send or report its own rejection, and `RESET`, which drops a send. -/
theorem exec_keeps_sendAccount {i : Instr} {s t : State} (h : exec i s = .next t) (hsend : ∀ len, i ≠ .send len)
    (hreset : i ≠ .reset) : sendAccount t = sendAccount s := by
  cases i with
  | send len => exact absurd rfl (hsend len)
  | rxlen total => cases h; exact sendAccount_setExpectedLength total s
  | disc => cases h; exact sendAccount_disconnect s
  | rxb b => cases h; exact sendAccount_receiveByte b s
  | wrdone => cases h; exact sendAccount_writeDone s
  | txnend | chabort => cases h; exact sendAccount_endTransaction s
  | contact => cases h; exact sendAccount_contactMade s
  | nocontact => cases h; exact sendAccount_contactLost s
  | present => cases h; exact sendAccount_partnerPresent s
  | orient o => cases h; exact sendAccount_orientationFound _ s
  | tmodet => cases h; exact sendAccount_detectTimeout s
  | tmoneg => cases h; exact sendAccount_negotiateTimeout s
  | poolav a => cases h; rfl
  | discdone => cases h; exact sendAccount_teardownDone s
  | reset => exact absurd rfl hreset

/-! ### The outputs of one operation -/

theorem ReadsOnlyTheBlock.out_eq {f : State → State} {s : State} (h : ReadsOnlyTheBlock f s) :
    (f s).out = s.out ++ emitted s (f s) :=
  congrArg State.out (h.changed_ownFields s.pending s.out s.idleSteps)

/-- An operation appends to the outputs what it emits. -/
theorem exec_out {i : Instr} {s t : State} (h : exec i s = .next t) : t.out = s.out ++ emitted s t := by
  obtain ⟨f, hf, hexec⟩ := exec_readsOnly_of_same_txbuf i s
  obtain rfl : f s = t := Host.Outcome.next.inj ((hexec s rfl).symm.trans h)
  exact hf.out_eq

/-- A `SEND` during a send leaves it in flight, rule R121. -/
theorem sendPacket_sending {len : Nat} {s : State} (hs : s.txState = .sending) :
    (sendPacket len s).txState = .sending := by
  rcases sendPacket_cases len s with ⟨k, h⟩ | ⟨hidle, -⟩
  · rw [h, rejectSend_txState, hs]
  · cases hs.symm.trans hidle

/-- Settles O20: the account of sends is kept, so the step reports as many sends as it ends. -/
theorem sendEndsWithExactlyOneReport : Obligations.SendEndsWithExactlyOneReport := by
  intro i s t hs h hreset
  have hkept (hsend : ∀ len, i ≠ .send len) :
      (emitted s t).countP isSendReport + (if t.txState = .sending then 1 else 0) = 1 := by
    have hcount := exec_keeps_sendAccount h hsend hreset
    rw [sendAccount_append (exec_out h), sendAccount, if_pos hs] at hcount
    omega
  refine ⟨fun ht => ?_, fun ht hsend => ?_⟩
  · have hsend : ∀ len, i ≠ .send len := by
      rintro len rfl
      cases h
      cases ht.symm.trans (sendPacket_sending hs)
    simpa [ht, List.countP_eq_length_filter] using hkept hsend
  · simpa [ht, List.countP_eq_length_filter] using hkept hsend

end Sys2Proof.Machine
end

section
/-! The results of the receive operations: `RXLEN` (rule R140) and `RXB` by the state of the receive path it meets, a byte
dropped (R141), a header byte (R143, R144) and a payload or trailer byte (R145 to R149). -/

namespace Sys2Proof.Machine

/-! ### `RXLEN` -/

theorem setExpectedLength_tooLong {total : Nat} {s : State} (h : s.cfg.maxPacket < total) :
    setExpectedLength total s = emit (.cbFault .lengthOutOfRange) (setFlag .len s) := if_pos h

theorem setExpectedLength_fits {total : Nat} {s : State} (h : total ≤ s.cfg.maxPacket) :
    setExpectedLength total s = { s with rxTotal := BitVec.ofNat 16 total } := if_neg h.not_gt

/-- Settles O21: the word is the encoding of `RXLEN total`, and each case of the rule has its equation; a total that fits a
packet fits the 16 bits of `rx_total`. -/
theorem rxlenResult : Obligations.RxlenResult := by
  intro total s
  refine ⟨fun htotal => ?_, fun hlong => ?_, fun hfits => ⟨?_, ?_⟩⟩
  · exact (congrArg decode (eventWord_ofNat 0x02#8 htotal)).symm.trans
      (decodeOfEncodeIsTheOperation (.rxlen total) (decide_eq_true htotal))
  · rw [exec_rxlen, setExpectedLength_tooLong hlong]; rfl
  · rw [exec_rxlen, setExpectedLength_fits hfits]
  · have hmax := maxPacket_le s.cfg
    exact (BitVec.toNat_ofNat total 16).trans (Nat.mod_eq_of_lt (by omega))

/-! ### A dropped byte -/

/-- The word of `RXB b` (rules R105 and R106). -/
theorem encode_rxb (b : Byte) : encode (.rxb b) = 0x10000000#32 + b.setWidth 32 := by
  have hbyte := eventWord_ofNat 0x10#8 (n := b.toNat) (by omega)
  rwa [BitVec.ofNat_toNat, BitVec.ofNat_toNat] at hbyte

/-- Settles O22: the word is the encoding of `RXB b`, and the two dropping cases of the rule are one equation. -/
theorem rxbDropsBytes : Obligations.RxbDropsBytes := by
  intro b s
  refine ⟨?_, fun hdrop => ?_⟩
  · rw [← encode_rxb, decodeOfEncodeIsTheOperation _ rfl]
  · rw [exec_rxb, receiveByte_dropped b hdrop]

/-! ### A header byte -/

/-- A byte that does not complete the header is only stored. -/
theorem headerStore_first {b : Byte} {s : State} (h : (s.rxBlob ++ [b]).length ≠ 2) :
    headerStore b s = { s with rxBlob := s.rxBlob ++ [b] } := if_neg h

/-- The byte that completes a header whose length fails a test of rule R144. -/
theorem headerStore_rejected {b : Byte} {s : State} (h : (s.rxBlob ++ [b]).length = 2)
    (hlong : lengthRejected s (decodeLen s.cfg.wireEndian ((s.rxBlob ++ [b]).take 2)) = true) :
    headerStore b s = afterReceiveFault .lengthOutOfRange s :=
  calc headerStore b s
    _ = headerComplete { s with rxBlob := s.rxBlob ++ [b] } := if_pos h
    _ = rxFault .lengthOutOfRange { s with rxBlob := s.rxBlob ++ [b] } := if_pos hlong
    _ = afterReceiveFault .lengthOutOfRange s := rxFault_eq (by decide) _

/-- The byte that completes a header whose length passes the tests of rule R144. -/
theorem headerStore_accepted {b : Byte} {s : State} (h : (s.rxBlob ++ [b]).length = 2)
    (hfits : ¬lengthRejected s (decodeLen s.cfg.wireEndian ((s.rxBlob ++ [b]).take 2)) = true) :
    headerStore b s =
      { s with rxBlob := s.rxBlob ++ [b], rxState := .expectPayload,
               rxRemaining := BitVec.ofNat 17 (decodeLen s.cfg.wireEndian ((s.rxBlob ++ [b]).take 2) + 4) } :=
  calc headerStore b s
    _ = headerComplete { s with rxBlob := s.rxBlob ++ [b] } := if_pos h
    _ = _ := if_neg hfits

/-- Settles O23: no Block, header not complete, length rejected and length accepted, each by its equation. -/
theorem headerByteResult : Obligations.HeaderByteResult := by
  intro b s hon hs blob length tooLong
  have hbyte : exec (.rxb b) s = .next (headerByte b s) := by rw [exec_rxb, receiveByte_header b hon hs]
  have htest : lengthRejected s length = true ↔ tooLong := lengthRejected_iff s length
  refine ⟨fun hbusy hpool => ?_, fun hblock => ?_⟩
  · rw [hbyte, headerByte_noBlock b hbusy hpool]; rfl
  · rw [hbyte, headerByte_store b hblock]
    refine ⟨fun hfirst => ?_, fun hsecond hlong => ?_, fun hsecond hfits => ?_⟩
    · exact congrArg Host.Outcome.next (headerStore_first hfirst)
    · exact congrArg Host.Outcome.next (headerStore_rejected hsecond (htest.mpr hlong))
    · exact congrArg Host.Outcome.next (headerStore_accepted hsecond (mt htest.mp hfits))

/-! ### A payload or trailer byte -/

/-- Settles O24: the byte is stored, and the last one completes the blob. -/
theorem bodyByteResult : Obligations.BodyByteResult := by
  intro b s hon hs
  rw [exec_rxb, receiveByte_body b hon hs]
  exact ⟨fun hmore => by rw [bodyByte_more b hmore], fun hlast => by rw [bodyByte_last b hlast]⟩

/-- The completeness test of rule R147 as a proposition. -/
theorem packetComplete_iff (s : State) (n : Nat) : packetComplete s n = true ↔
    (s.cfg.termMode = .apriori ∧ s.rxPkt.length = s.rxTotal.toNat) ∨ (s.cfg.termMode = .sentinel ∧ n = 0) := by
  unfold packetComplete
  cases s.cfg.termMode <;> simp

/-- The payload of a valid blob joins the packet, and the path waits for the next header, rule R147. -/
def payloadAppended (s : State) : State :=
  { s with
    crcFaultCnt := 0, rxBlob := [], rxState := .expectHeader,
    rxPkt := s.rxPkt ++ (s.rxBlob.drop 2).take (decodeLen s.cfg.wireEndian (s.rxBlob.take 2)) }

/-- A valid blob, rule R147. -/
theorem blobComplete_valid {s : State} (h : crcValid s = true) :
    blobComplete s =
      if packetComplete (payloadAppended s) (decodeLen s.cfg.wireEndian (s.rxBlob.take 2)) then
        deliver (payloadAppended s)
      else payloadAppended s := if_pos h

/-- Settles O25: the last byte completes a blob that is accepted, and the test of R104 says whether it is delivered. -/
theorem validBlobResult : Obligations.ValidBlobResult := by
  intro b s hon hs hlast blob length pkt complete hcrc
  obtain ⟨u, hu⟩ : ∃ u : State, u = { s with rxBlob := blob, rxRemaining := 0#17 } := ⟨_, rfl⟩
  have hvalid : crcValid u = true := by rw [hu, crcValid_iff]; exact hcrc
  have htest : packetComplete (payloadAppended u) (decodeLen u.cfg.wireEndian (u.rxBlob.take 2)) = true ↔ complete := by
    rw [hu]; exact packetComplete_iff _ _
  rw [exec_rxb, receiveByte_body b hon hs, bodyByte_last b hlast, ← hu, blobComplete_valid hvalid]
  refine ⟨fun hcomplete => ?_, fun hincomplete => ?_⟩
  · rw [if_pos (htest.mpr hcomplete), hu]; rfl
  · rw [if_neg (mt htest.mp hincomplete), hu]; rfl

/-- Settles O26: the last byte completes a blob that faults, below the limit, or at it where `CONNECTED` is
left with the send path idle or not. -/
theorem crcMismatchResult : Obligations.CrcMismatchResult := by
  intro b s hon hs hlast blob length hcrc
  have hinvalid : ¬crcValid { s with rxBlob := blob, rxRemaining := 0#17 } = true := by rwa [crcValid_iff]
  have hfault : exec (.rxb b) s = .next (rxFault .crcMismatch s) := by
    rw [exec_rxb, receiveByte_body b hon hs, bodyByte_last b hlast, blobComplete, if_neg hinvalid, rxFault_forgets_blob]
  rw [hfault]
  refine ⟨fun hbelow => ?_, fun hlimit hidle => ?_, fun hlimit hsending => ?_⟩
  · rw [rxFault_crc_below hbelow]; rfl
  · rw [rxFault_crc_limit hlimit]
    simp [afterLeaving, afterReceiveFault, sendCleared, abortFlags, leaveOutputs, hidle, BitVec.or_assoc, flagMask,
      flagBit]
  · rw [rxFault_crc_limit hlimit]
    simp [afterLeaving, afterReceiveFault, sendCleared, abortFlags, leaveOutputs, hsending, BitVec.or_assoc, flagMask,
      flagBit]

end Sys2Proof.Machine
end

section
/-! What `RXB` leaves unchanged (rules R141, R149 and R202). -/

namespace Sys2Proof.Machine

/-- The registers that `RXB` never writes: the connector's timer and retries, and the inputs `contact`, `pool_avail` and
`rx_total`. -/
def timerAndInputs (s : State) : Bool × Tmr × Nat × Bool × BitVec 16 :=
  (s.contact, s.tmr, s.retryCnt, s.poolAvail, s.rxTotal)

/-- The registers of the connection, rule R20. -/
def connection (s : State) : ConnState × Bool × Bool × Orientation :=
  (s.connState, s.connected, s.chanEn, s.orientation)

theorem timerAndInputs_sendCleared (s : State) : timerAndInputs (sendCleared s) = timerAndInputs s := by
  unfold sendCleared; split <;> rfl

theorem timerAndInputs_afterLeaving (c : ConnState) (s : State) :
    timerAndInputs (afterLeaving c s) = timerAndInputs s := timerAndInputs_sendCleared s

theorem timerAndInputs_receiveByte (b : Byte) (s : State) : timerAndInputs (receiveByte b s) = timerAndInputs s := by
  rcases receiveByte_cases b s with
    ⟨ht, -⟩ | ⟨-, -, ⟨ht, -⟩ | ht | ht | ht⟩ | ⟨-, -, ⟨-, ht | ht | ⟨pkt, ht | ht⟩⟩ | ⟨-, ht⟩⟩
  case inr.inr.inr => exact (congrArg timerAndInputs ht).trans (timerAndInputs_afterLeaving _ _)
  all_goals exact (congrArg timerAndInputs ht).trans rfl

/-- Of all that a byte can do, only the persistent CRC fault ends the connection, rule R149. -/
theorem connection_receiveByte {b : Byte} {s : State} (h : ¬persistentCrcFault b s) :
    connection (receiveByte b s) = connection s := by
  rcases receiveByte_cases b s with
    ⟨ht, -⟩ | ⟨-, -, ⟨ht, -⟩ | ht | ht | ht⟩ | ⟨-, -, ⟨-, ht | ht | ⟨pkt, ht | ht⟩⟩ | ⟨hp, -⟩⟩
  case inr.inr.inr => exact absurd hp h
  all_goals exact (congrArg connection ht).trans rfl

/-- Settles O58: `RXB` keeps the host's side, and with it `TXBUF`, and the two groups of registers. -/
theorem rxbFrame : Obligations.RxbFrame := by
  intro b s t h
  cases h
  obtain ⟨-, htxbuf, -⟩ := hostSide_eq_iff.mp (hostSide_receiveByte b s)
  have hkept := timerAndInputs_receiveByte b s
  simp only [timerAndInputs, Prod.mk.injEq] at hkept
  obtain ⟨hcontact, htmr, hretry, hpool, htotal⟩ := hkept
  refine ⟨hcontact, htmr, hretry, hpool, htotal, fun a => by rw [htxbuf], fun hfault => ?_⟩
  simpa only [connection, Prod.mk.injEq] using connection_receiveByte hfault

end Sys2Proof.Machine
end

section
/-! The reports of a reassembly (rule R150 item 4). A reassembly is under way only in `CONNECTED`, where every operation but
`RESET` either keeps it or ends it with one report. -/

namespace Sys2Proof.Machine

/-- The step from `s` to `t` keeps the Block of the reassembly, or reports exactly one end of a reassembly. -/
def KeepsOrReportsReassembly (s t : State) : Prop :=
  t.rxBusy = true ∨ ∃ os, t.out = s.out ++ os ∧ os.countP isReceiveReport = 1

/-- The channel is enabled while a Block is held (rule R39, item d), so the connector is connected. -/
theorem Inv.connected_of_rxBusy {s : State} (h : Inv s) (hbusy : s.rxBusy = true) : s.connState = .connected := by
  refine h.chanEn_iff.mp ?_
  by_contra hoff
  obtain ⟨-, hfree, -⟩ := h.channel_off (Bool.eq_false_iff.mpr hoff)
  cases hbusy.symm.trans hfree

/-! ### The operations that end a reassembly -/

/-- Leaving `CONNECTED` reports the reassembly that was under way, rule R196. -/
theorem countP_isReceiveReport_leaveOutputs (s : State) :
    (leaveOutputs s).countP isReceiveReport = if s.rxBusy = true then 1 else 0 := by
  unfold leaveOutputs
  split <;> split <;> rfl

/-- A transaction boundary reports the reassembly that was under way, rule R170. -/
theorem countP_isReceiveReport_boundaryOutputs (s : State) :
    (boundaryOutputs s).countP isReceiveReport = if s.rxBusy = true then 1 else 0 := by
  unfold boundaryOutputs
  split <;> split <;> rfl

/-- Losing the contact in `CONNECTED`, rule R184. -/
theorem contactLost_connected {s : State} (hc : s.connState = .connected) :
    contactLost s = goIdle (afterLeaving .connected (setFlag .contactLost { s with contact := false })) := by
  simp [contactLost, leaveConnected_eq, hc]

section

variable {s : State} (hbusy : s.rxBusy = true)
include hbusy

theorem disconnect_reportsReassembly : KeepsOrReportsReassembly s (disconnect s) := by
  rw [disconnect_eq]
  split
  · exact .inr ⟨leaveOutputs s, rfl, by rw [countP_isReceiveReport_leaveOutputs, if_pos hbusy]⟩
  · exact .inl hbusy

theorem endTransaction_reportsReassembly : KeepsOrReportsReassembly s (endTransaction s) := by
  rw [endTransaction_eq]
  exact .inr ⟨boundaryOutputs s, rfl, by rw [countP_isReceiveReport_boundaryOutputs, if_pos hbusy]⟩

/-- Losing the contact while connected ends the reassembly in `LeaveConnected`; what `GoIdle` emits is no report. -/
theorem contactLost_reportsReassembly (hc : s.connState = .connected) :
    KeepsOrReportsReassembly s (contactLost s) := by
  rw [contactLost_connected hc, goIdle_eq]
  refine .inr ⟨leaveOutputs s ++ _, List.append_assoc .., ?_⟩
  rw [List.countP_append, countP_isReceiveReport_leaveOutputs, if_pos hbusy]
  split <;> rfl

/-- A byte stores itself, faults or delivers: a fault and a delivery report the reassembly, and the persistent CRC fault,
which has reported it, finds none left in `LeaveConnected`. -/
theorem receiveByte_reportsReassembly (b : Byte) : KeepsOrReportsReassembly s (receiveByte b s) := by
  have hfault (k : ErrorKind) : KeepsOrReportsReassembly s (afterReceiveFault k s) := .inr ⟨[.cbFault k], rfl, rfl⟩
  rcases receiveByte_cases b s with
    ⟨h, -⟩ | ⟨-, -, ⟨-, hfree⟩ | h | h | h⟩ | ⟨-, -, ⟨-, h | h | ⟨pkt, h | h⟩⟩ | ⟨-, h⟩⟩
  case inr.inl.inl => cases hbusy.symm.trans hfree
  all_goals rw [h]
  case inr.inl.inr.inl | inr.inr.inl.inr.inl => exact hfault _
  case inr.inl.inr.inr.inl | inr.inl.inr.inr.inr => exact .inl rfl
  case inr.inr.inl.inr.inr.inr => exact .inr ⟨[.cbPacket s.cfg.connectorId pkt], rfl, rfl⟩
  case inr.inr.inr =>
    refine .inr ⟨.cbFault .crcMismatch :: leaveOutputs (afterReceiveFault .crcMismatch s), ?_, ?_⟩
    · exact List.append_assoc ..
    · rw [List.countP_cons, countP_isReceiveReport_leaveOutputs]; rfl
  all_goals exact .inl hbusy

end

/-! ### Every operation -/

theorem rxBusy_of_receivePath {s t : State} (h : receivePath t = receivePath s) : t.rxBusy = s.rxBusy := by
  obtain ⟨-, -, -, -, hbusy, -⟩ := receivePath_eq_iff.mp h
  exact hbusy

/-- In `CONNECTED` an operation ends a reassembly with one report, or leaves it alone: so do those of the connector that
are ignored there (rule R202). -/
theorem exec_keepsOrReportsReassembly {i : Instr} {s t : State} (h : exec i s = .next t) (hbusy : s.rxBusy = true)
    (hc : s.connState = .connected) (hreset : i ≠ .reset) : KeepsOrReportsReassembly s t := by
  cases i with
  | send len => cases h; exact .inl ((rxBusy_of_receivePath (receivePath_sendPacket len s)).trans hbusy)
  | rxlen total => cases h; exact .inl ((rxBusy_of_receivePath (receivePath_setExpectedLength total s)).trans hbusy)
  | wrdone => cases h; exact .inl ((rxBusy_of_receivePath (receivePath_writeDone s)).trans hbusy)
  | disc => cases h; exact disconnect_reportsReassembly hbusy
  | rxb b => cases h; exact receiveByte_reportsReassembly hbusy b
  | txnend | chabort => cases h; exact endTransaction_reportsReassembly hbusy
  | nocontact => cases h; exact contactLost_reportsReassembly hbusy hc
  | contact => cases h; left; simpa [contactMade, hc] using hbusy
  | present => cases h; left; simpa [partnerPresent, hc] using hbusy
  | orient o => cases h; left; simpa [orientationFound, hc] using hbusy
  | tmodet => cases h; left; simpa [detectTimeout, hc] using hbusy
  | tmoneg => cases h; left; simpa [negotiateTimeout, hc] using hbusy
  | discdone => cases h; left; simpa [teardownDone, hc] using hbusy
  | poolav a => cases h; exact .inl hbusy
  | reset => exact absurd rfl hreset

/-- Settles O29: a reassembly that is not kept is reported once. -/
theorem reassemblyEndsWithExactlyOneReport : Obligations.ReassemblyEndsWithExactlyOneReport := by
  intro i s t hinv hbusy h hended hreset
  rcases exec_keepsOrReportsReassembly h hbusy (hinv.connected_of_rxBusy hbusy) hreset with hkept | ⟨os, hout, hone⟩
  · cases hkept.symm.trans hended
  · rw [emitted, hout, List.drop_left, ← List.countP_eq_length_filter, hone]

end Sys2Proof.Machine
end

section
/-! The transaction boundary (rules R170 to R172): one equation per case of send and reassembly in flight or not, and that a
second boundary finds both paths at rest. -/

namespace Sys2Proof.Machine

/-! ### What is given up, by the send path's state -/

theorem sendCleared_of_idle {s : State} (hidle : s.txState = .idle) : sendCleared s = s := if_neg (by simp [hidle])

theorem sendCleared_of_sending {s : State} (hsending : s.txState = .sending) :
    sendCleared s = { s with txState := .idle, txPkt := [], txIdx := 0#17, txNblobs := 0#17 } := if_pos hsending

theorem abortFlags_of_inFlight {s : State} (hflight : s.txState = .sending ∨ s.rxBusy = true) :
    abortFlags s = s.faultFlags ||| 0x08#8 := if_pos hflight

theorem abortFlags_of_quiet {s : State} (hidle : s.txState = .idle) (hfree : s.rxBusy = false) :
    abortFlags s = s.faultFlags := if_neg (by simp [hidle, hfree])

/-! ### The four cases of a boundary -/

/-- With nothing in flight only the receive path's state and buffers are reset: no flag, no output. -/
theorem endTransaction_quiet {s : State} (hidle : s.txState = .idle) (hfree : s.rxBusy = false) :
    endTransaction s = { s with rxState := .expectHeader, rxBlob := [], rxRemaining := 0#17, rxPkt := [] } := by
  have hout : boundaryOutputs s = [] := by simp [boundaryOutputs, hidle, hfree]
  rw [endTransaction_eq, sendCleared_of_idle hidle, abortFlags_of_quiet hidle hfree, hout, List.append_nil, ← hfree]

theorem endTransaction_receiving {s : State} (hidle : s.txState = .idle) (hbusy : s.rxBusy = true) :
    endTransaction s =
      { s with rxState := .expectHeader, rxBlob := [], rxRemaining := 0#17, rxPkt := [], rxBusy := false,
               faultFlags := s.faultFlags ||| 0x08#8, out := s.out ++ [.cbFault .channelAborted] } := by
  have hout : boundaryOutputs s = [.cbFault .channelAborted] := by simp [boundaryOutputs, hidle, hbusy]
  rw [endTransaction_eq, sendCleared_of_idle hidle, abortFlags_of_inFlight (.inr hbusy), hout]

theorem endTransaction_sending {s : State} (hsending : s.txState = .sending) (hfree : s.rxBusy = false) :
    endTransaction s =
      { s with txState := .idle, txPkt := [], txIdx := 0#17, txNblobs := 0#17,
               rxState := .expectHeader, rxBlob := [], rxRemaining := 0#17, rxPkt := [],
               faultFlags := s.faultFlags ||| 0x08#8, out := s.out ++ [.cbSendFailed .channelAborted] } := by
  have hout : boundaryOutputs s = [.cbSendFailed .channelAborted] := by simp [boundaryOutputs, hsending, hfree]
  rw [endTransaction_eq, sendCleared_of_sending hsending, abortFlags_of_inFlight (.inl hsending), hout, ← hfree]

theorem endTransaction_both {s : State} (hsending : s.txState = .sending) (hbusy : s.rxBusy = true) :
    endTransaction s =
      { s with txState := .idle, txPkt := [], txIdx := 0#17, txNblobs := 0#17,
               rxState := .expectHeader, rxBlob := [], rxRemaining := 0#17, rxPkt := [], rxBusy := false,
               faultFlags := s.faultFlags ||| 0x08#8,
               out := s.out ++ [.cbSendFailed .channelAborted, .cbFault .channelAborted] } := by
  have hout : boundaryOutputs s = [.cbSendFailed .channelAborted, .cbFault .channelAborted] := by
    simp [boundaryOutputs, hsending, hbusy]
  rw [endTransaction_eq, sendCleared_of_sending hsending, abortFlags_of_inFlight (.inl hsending), hout]

/-- Settles O30: each case of the rule has its equation, and `CHABORT` is the same procedure. -/
theorem transactionEndResult : Obligations.TransactionEndResult := by
  refine ⟨decodeOfEncodeIsTheOperation .txnend rfl, decodeOfEncodeIsTheOperation .chabort rfl,
    fun s => ⟨(exec_chabort s).trans (exec_txnend s).symm, ?_⟩⟩
  rw [exec_txnend]
  exact ⟨fun hidle hfree => congrArg _ (endTransaction_quiet hidle hfree),
    fun hidle hbusy => congrArg _ (endTransaction_receiving hidle hbusy),
    fun hsending hfree => congrArg _ (endTransaction_sending hsending hfree),
    fun hsending hbusy => congrArg _ (endTransaction_both hsending hbusy)⟩

/-! ### A second boundary -/

/-- What a boundary leaves in both paths, in every state; that the send path's buffer is empty too needs rule R39. -/
theorem endTransaction_atRest (s : State) :
    (endTransaction s).txState = .idle ∧ (endTransaction s).rxState = .expectHeader ∧
      (endTransaction s).rxBusy = false ∧ (endTransaction s).rxBlob = [] ∧ (endTransaction s).rxPkt = [] ∧
      (endTransaction s).rxRemaining = 0#17 := by
  rw [endTransaction_eq]
  exact ⟨sendCleared_txState s, rfl, rfl, rfl, rfl, rfl⟩

/-- A boundary is idempotent in every state: the second one is of the case with nothing in flight, and what that case resets
the first one has reset. -/
theorem endTransaction_endTransaction (s : State) : endTransaction (endTransaction s) = endTransaction s := by
  obtain ⟨hidle, -, hfree, -⟩ := endTransaction_atRest s
  rw [endTransaction_quiet hidle hfree, endTransaction_eq]

theorem exec_boundary {i : Instr} (hi : i = .txnend ∨ i = .chabort) (s : State) :
    exec i s = .next (endTransaction s) := by
  obtain rfl | rfl := hi
  · exact exec_txnend s
  · exact exec_chabort s

/-- Settles O31: either operation is a boundary, and rule R39 item j empties the send path's buffer with it. -/
theorem secondBoundaryChangesNothing : Obligations.SecondBoundaryChangesNothing := by
  intro i j s hi hj hinv
  obtain ⟨hidle, hrest⟩ := endTransaction_atRest s
  obtain ⟨hpkt, -⟩ := (inv_endTransaction hinv).tx_idle hidle
  refine ⟨endTransaction s, exec_boundary hi s, ?_, hidle, hpkt, hrest⟩
  rw [exec_boundary hj, endTransaction_endTransaction]

end Sys2Proof.Machine
end

section
/-! The connector's operations (rules R182 to R200): one equation per case of the connector state, each a whole next state. -/

namespace Sys2Proof.Machine

/-! ### `CONTACT` and `NOCONTACT` -/

theorem contactMade_idle {s : State} (hc : s.connState = .idle) :
    contactMade s =
      { s with contact := true, faultFlags := 0x00#8, connState := .detecting, retryCnt := 0, tmr := .det,
               out := s.out ++ [.probe, .tmrArm .det] } := by
  simp [contactMade, emit, hc]

theorem contactMade_recorded {s : State} (hc : s.connState ≠ .idle) : contactMade s = { s with contact := true } :=
  if_neg hc

/-- Settles O32: each case of the rule has its equation. -/
theorem contactResult : Obligations.ContactResult :=
  ⟨decodeOfEncodeIsTheOperation .contact rfl, fun _ =>
    ⟨fun hc => congrArg _ (contactMade_idle hc), fun hc => congrArg _ (contactMade_recorded hc)⟩⟩

theorem contactLost_idle {s : State} (hc : s.connState = .idle) : contactLost s = { s with contact := false } := by
  simp [contactLost, hc]

/-- While a partner is looked for, losing the contact is a fault, rule R184. -/
theorem contactLost_searching {s : State} (hc : s.connState = .detecting ∨ s.connState = .negotiating) :
    contactLost s =
      { s with contact := false, faultFlags := s.faultFlags ||| 0x40#8, connState := .idle, tmr := .off, retryCnt := 0,
               out := s.out ++ if s.tmr = .off then [] else [.tmrCancel] } := by
  rcases hc with hc | hc <;> simp only [contactLost, hc, goIdle_eq] <;> rfl

theorem contactLost_disconnecting {s : State} (hc : s.connState = .disconnecting) :
    contactLost s =
      { s with contact := false, connState := .idle, tmr := .off, retryCnt := 0,
               out := s.out ++ if s.tmr = .off then [] else [.tmrCancel] } := by
  simp only [contactLost, hc, goIdle_eq]

/-- What is given up in either direction sets `FF_ABORT`, as a mask. -/
theorem abortFlags_eq_or (s : State) : abortFlags s =
    s.faultFlags ||| (if s.txState = .sending ∨ s.rxBusy = true then 0x08#8 else 0x00#8) := by
  unfold abortFlags
  split
  · rfl
  · exact BitVec.or_zero.symm

/-- The send given up does not depend on the level of the contact and the flag of its loss. -/
theorem sendCleared_contactLost (s : State) : sendCleared (setFlag .contactLost { s with contact := false }) =
    setFlag .contactLost { sendCleared s with contact := false } := by
  by_cases hs : s.txState = .sending
  · rw [sendCleared_of_sending hs]; exact sendCleared_of_sending hs
  · rw [sendCleared, sendCleared, if_neg hs]; exact if_neg hs

@[simp] theorem sendCleared_tmr (s : State) : (sendCleared s).tmr = s.tmr := by
  unfold sendCleared; split <;> rfl

@[simp] theorem sendCleared_rxTotal (s : State) : (sendCleared s).rxTotal = s.rxTotal := by
  unfold sendCleared; split <;> rfl

@[simp] theorem sendCleared_poolAvail (s : State) : (sendCleared s).poolAvail = s.poolAvail := by
  unfold sendCleared; split <;> rfl

/-- Losing the contact in `CONNECTED`: `LeaveConnected` (R196), then `GoIdle` (R194). -/
theorem contactLost_linked {s : State} (hc : s.connState = .connected) :
    contactLost s =
      { sendCleared s with
        contact := false, connState := .idle, tmr := .off, retryCnt := 0, chanEn := false, connected := false,
        orientation := .oriNone, rxState := .expectHeader, rxBlob := [], rxRemaining := 0#17, rxPkt := [],
        rxBusy := false, crcFaultCnt := 0,
        faultFlags := s.faultFlags ||| 0x40#8 ||| (if s.txState = .sending ∨ s.rxBusy = true then 0x08#8 else 0x00#8),
        out := s.out ++ leaveOutputs s ++ if s.tmr = .off then [] else [.tmrCancel] } := by
  rw [contactLost_connected hc, goIdle_eq, afterLeaving, abortFlags_eq_or, sendCleared_contactLost, ← sendCleared_tmr s]
  rfl

/-- Settles O33: each case of the rule has its equation. -/
theorem nocontactResult : Obligations.NocontactResult :=
  ⟨decodeOfEncodeIsTheOperation .nocontact rfl, fun _ =>
    ⟨fun hc => congrArg _ (contactLost_idle hc), fun hc => congrArg _ (contactLost_searching hc),
      fun hc => congrArg _ (contactLost_linked hc), fun hc => congrArg _ (contactLost_disconnecting hc)⟩⟩

/-! ### `PRESENT` and `ORIENT` -/

theorem partnerPresent_detecting {s : State} (hc : s.connState = .detecting) :
    partnerPresent s =
      { s with connState := .negotiating, retryCnt := 0, tmr := .neg, out := s.out ++ [.negStart, .tmrArm .neg] } := by
  simp [partnerPresent, emit, hc]

theorem partnerPresent_ignored {s : State} (hc : s.connState ≠ .detecting) : partnerPresent s = s := if_neg hc

/-- Settles O34: each case of the rule has its equation. -/
theorem presentResult : Obligations.PresentResult :=
  ⟨decodeOfEncodeIsTheOperation .present rfl, fun _ =>
    ⟨fun hc => congrArg _ (partnerPresent_detecting hc), fun hc => congrArg _ (partnerPresent_ignored hc)⟩⟩

theorem orientationFound_negotiating {o : Orientation} {s : State} (hc : s.connState = .negotiating) :
    orientationFound o s =
      { s with tmr := .off, orientation := o, connected := true, chanEn := true,
               rxBlob := [], rxRemaining := 0#17, rxPkt := [], rxBusy := false, rxState := .expectHeader,
               crcFaultCnt := 0, connState := .connected, out := s.out ++ [.tmrCancel, .cbState o true] } := by
  simp [orientationFound, emit, rxClear, hc]

theorem orientationFound_ignored {o : Orientation} {s : State} (hc : s.connState ≠ .negotiating) :
    orientationFound o s = s := if_neg hc

/-- Settles O35: there are four operands, and each case of the rule has its equation. -/
theorem orientResult : Obligations.OrientResult :=
  ⟨by decide, fun _ _ =>
    ⟨fun hc => congrArg _ (orientationFound_negotiating hc), fun hc => congrArg _ (orientationFound_ignored hc)⟩⟩

/-! ### The timeouts -/

section

variable {s : State} (hc : s.connState = .detecting) (ht : s.tmr = .det)
include hc ht

theorem detectTimeout_unlimited (hmax : s.cfg.detectRetryMax = none) :
    detectTimeout s = { s with out := s.out ++ [.probe, .tmrArm .det] } := by
  simp [detectTimeout, probeAgain, emit, hc, ht, hmax]

theorem detectTimeout_retry {n : Nat} (hmax : s.cfg.detectRetryMax = some n) (hlt : s.retryCnt < n) :
    detectTimeout s = { s with retryCnt := s.retryCnt + 1, out := s.out ++ [.probe, .tmrArm .det] } := by
  simp [detectTimeout, probeAgain, emit, hc, ht, hmax, hlt]

/-- The timer has expired, so that `GoIdle` finds none to cancel. -/
theorem detectTimeout_giveUp {n : Nat} (hmax : s.cfg.detectRetryMax = some n) (hge : n ≤ s.retryCnt) :
    detectTimeout s =
      { s with faultFlags := s.faultFlags ||| 0x10#8, connState := .idle, tmr := .off, retryCnt := 0 } := by
  simp [detectTimeout, goIdle_eq, setFlag, flagMask, flagBit, hc, ht, hmax, hge.not_gt]

end

theorem detectTimeout_stale {s : State} (h : s.connState ≠ .detecting ∨ s.tmr ≠ .det) : detectTimeout s = s :=
  if_neg (not_and_or.mpr h)

/-- Settles O36: each case of the rule has its equation. -/
theorem tmodetResult : Obligations.TmodetResult :=
  ⟨decodeOfEncodeIsTheOperation .tmodet rfl, fun _ =>
    ⟨fun hc ht =>
      ⟨fun hmax => congrArg _ (detectTimeout_unlimited hc ht hmax),
        fun _ hmax hlt => congrArg _ (detectTimeout_retry hc ht hmax hlt),
        fun _ hmax hge => congrArg _ (detectTimeout_giveUp hc ht hmax hge)⟩,
      fun h => congrArg _ (detectTimeout_stale h)⟩⟩

theorem negotiateTimeout_due {s : State} (hc : s.connState = .negotiating) (ht : s.tmr = .neg) :
    negotiateTimeout s =
      { s with faultFlags := s.faultFlags ||| 0x20#8, connState := .idle, tmr := .off, retryCnt := 0 } := by
  simp [negotiateTimeout, goIdle_eq, setFlag, flagMask, flagBit, hc, ht]

theorem negotiateTimeout_stale {s : State} (h : s.connState ≠ .negotiating ∨ s.tmr ≠ .neg) : negotiateTimeout s = s :=
  if_neg (not_and_or.mpr h)

/-- Settles O37: each case of the rule has its equation. -/
theorem tmonegResult : Obligations.TmonegResult :=
  ⟨decodeOfEncodeIsTheOperation .tmoneg rfl, fun _ =>
    ⟨fun hc ht => congrArg _ (negotiateTimeout_due hc ht), fun h => congrArg _ (negotiateTimeout_stale h)⟩⟩

/-! ### `DISC` and `DISCDONE` -/

theorem disconnect_connected {s : State} (hc : s.connState = .connected) :
    disconnect s = afterLeaving .disconnecting s := by
  rw [disconnect_eq, if_pos hc]

theorem disconnect_ignored {s : State} (hc : s.connState ≠ .connected) : disconnect s = s := if_neg hc

/-- Settles O38: the outputs of leaving `CONNECTED` are those of either path and the callback. -/
theorem discResult : Obligations.DiscResult := by
  refine ⟨decodeOfEncodeIsTheOperation .disc rfl, fun s => ⟨fun hc => ?_, fun hc => congrArg _ (disconnect_ignored hc)⟩⟩
  rw [exec_disc, disconnect_connected hc, afterLeaving, abortFlags_eq_or, leaveOutputs, ← List.append_assoc,
    ← List.append_assoc]

theorem teardownDone_disconnecting {s : State} (hc : s.connState = .disconnecting) :
    teardownDone s =
      { s with connState := .idle, tmr := .off, retryCnt := 0,
               out := s.out ++ if s.tmr = .off then [] else [.tmrCancel] } := by
  rw [teardownDone, if_pos hc, goIdle_eq]

theorem teardownDone_ignored {s : State} (hc : s.connState ≠ .disconnecting) : teardownDone s = s := if_neg hc

/-- Settles O39: each case of the rule has its equation. -/
theorem discdoneResult : Obligations.DiscdoneResult :=
  ⟨decodeOfEncodeIsTheOperation .discdone rfl, fun _ =>
    ⟨fun hc => congrArg _ (teardownDone_disconnecting hc), fun hc => congrArg _ (teardownDone_ignored hc)⟩⟩

end Sys2Proof.Machine
end

section
/-! Runs of the connector (rule R204 item 1): the handshake, and a detection that finds no partner. -/

namespace Sys2Proof.Machine

theorem runAll_cons {i : Instr} {l : List Instr} {s t : State} (h : exec i s = .next t) :
    runAll (i :: l) s = runAll l t := by
  simp only [runAll, h]

/-- Settles O41: the three rules apply one after another, each in the state the one before has entered. -/
theorem handshakeConnects : Obligations.HandshakeConnects := by
  intro o s hc
  rw [handshakeOps, runAll_cons (exec_contact s), contactMade_idle hc, runAll_cons (exec_present _),
    partnerPresent_detecting rfl, runAll_cons (exec_orient o _), orientationFound_negotiating rfl]
  simp [runAll]

/-- `s` after `CONTACT` in `IDLE` and `k` detection timeouts within the retries. -/
def polled (k : Nat) (s : State) : State :=
  { s with contact := true, faultFlags := 0x00#8, connState := .detecting, retryCnt := k, tmr := .det,
           out := s.out ++ (List.replicate (k + 1) [.probe, .tmrArm .det]).flatten }

/-- One more timeout within the retries. -/
theorem detectTimeout_polled {n k : Nat} {s : State} (hmax : s.cfg.detectRetryMax = some n) (hk : k < n) :
    detectTimeout (polled k s) = polled (k + 1) s := by
  rw [detectTimeout_retry (s := polled k s) rfl rfl hmax hk]
  simp [polled, List.replicate_succ' (n := k + 1)]

/-- The timeout after the last retry. -/
theorem detectTimeout_polled_last {n : Nat} {s : State} (hc : s.connState = .idle)
    (hmax : s.cfg.detectRetryMax = some n) :
    detectTimeout (polled n s) =
      { s with contact := true, faultFlags := 0x10#8, retryCnt := 0, tmr := .off,
               out := s.out ++ (List.replicate (n + 1) [.probe, .tmrArm .det]).flatten } := by
  rw [detectTimeout_giveUp (s := polled n s) rfl rfl hmax le_rfl]
  simp [polled, hc]

theorem runAll_polls {n k : Nat} {s : State} (hc : s.connState = .idle) (hmax : s.cfg.detectRetryMax = some n)
    (hk : k ≤ n) : runAll (.contact :: List.replicate k .tmodet) s = .next (polled k s) := by
  induction k with
  | zero => rw [runAll_cons (exec_contact s), contactMade_idle hc]; rfl
  | succ k ih =>
    rw [List.replicate_succ', ← List.cons_append, runAll_append (ih (Nat.le_of_lt hk)), runAll_cons (exec_tmodet _),
      detectTimeout_polled hmax hk, runAll]

end Sys2Proof.Machine
end

section
/-! Frames between the two halves of the block (rule R202): the framer's operations leave the connector alone, and the
connector's own moves leave the framer alone unless they enter or leave `CONNECTED`. -/

namespace Sys2Proof.Machine

/-! ### The framer's operations -/

/-- The connector's registers, the pool's bit and the fault counter, rule R20. -/
def connectorRegisters (s : State) : (ConnState × Bool × Bool × Orientation) × Bool × Tmr × Nat × Bool × Nat :=
  (connection s, s.contact, s.tmr, s.retryCnt, s.poolAvail, s.crcFaultCnt)

theorem connectorRegisters_eq_iff {s t : State} : connectorRegisters t = connectorRegisters s ↔
    (t.connState = s.connState ∧ t.connected = s.connected ∧ t.chanEn = s.chanEn ∧ t.orientation = s.orientation) ∧
      t.contact = s.contact ∧ t.tmr = s.tmr ∧ t.retryCnt = s.retryCnt ∧ t.poolAvail = s.poolAvail ∧
      t.crcFaultCnt = s.crcFaultCnt := by
  simp [connectorRegisters, connection]

theorem sendPacket_keeps_connector (len : Nat) (s : State) :
    connectorRegisters (sendPacket len s) = connectorRegisters s ∧ (sendPacket len s).rxTotal = s.rxTotal := by
  rcases sendPacket_cases len s with ⟨k, h⟩ | ⟨-, h⟩ <;> rw [h] <;> exact ⟨rfl, rfl⟩

theorem writeDone_keeps_connector (s : State) :
    connectorRegisters (writeDone s) = connectorRegisters s ∧ (writeDone s).rxTotal = s.rxTotal := by
  unfold writeDone
  split
  · dsimp only; split <;> exact ⟨rfl, rfl⟩
  · exact ⟨rfl, rfl⟩

theorem endTransaction_keeps_connector (s : State) :
    connectorRegisters (endTransaction s) = connectorRegisters s ∧ (endTransaction s).rxTotal = s.rxTotal := by
  rw [endTransaction_eq]
  unfold sendCleared
  split <;> exact ⟨rfl, rfl⟩

theorem setExpectedLength_keeps_connector (total : Nat) (s : State) :
    connectorRegisters (setExpectedLength total s) = connectorRegisters s := by
  unfold setExpectedLength; split <;> rfl

/-- The operations of the framer that the connector never hears of. -/
theorem exec_keeps_connector {i : Instr} {s t : State} (h : exec i s = .next t)
    (hi : (∃ n, i = .send n) ∨ (∃ n, i = .rxlen n) ∨ i = .wrdone ∨ i = .txnend ∨ i = .chabort) :
    connectorRegisters t = connectorRegisters s ∧ ((∀ n, i ≠ .rxlen n) → t.rxTotal = s.rxTotal) := by
  obtain ⟨len, rfl⟩ | ⟨total, rfl⟩ | rfl | rfl | rfl := hi <;> cases h
  · exact (sendPacket_keeps_connector len s).imp_right fun htotal _ => htotal
  · exact ⟨setExpectedLength_keeps_connector total s, fun hne => absurd rfl (hne total)⟩
  · exact (writeDone_keeps_connector s).imp_right fun htotal _ => htotal
  all_goals exact (endTransaction_keeps_connector s).imp_right fun htotal _ => htotal

/-- Settles O56: each of the five keeps the connector's registers as a whole. -/
theorem framerOperationsKeepTheConnector : Obligations.FramerOperationsKeepTheConnector := by
  intro i s t hi h
  obtain ⟨hregs, htotal⟩ := exec_keeps_connector h hi
  obtain ⟨⟨hconn, hconnected, hchan, hori⟩, hcontact, htmr, hretry, hpool, hcount⟩ := connectorRegisters_eq_iff.mp hregs
  exact ⟨hconn, hcontact, hconnected, hchan, hori, htmr, hretry, hpool, hcount, htotal⟩

/-! ### The connector's moves that neither enter nor leave `CONNECTED` -/

/-- Both paths, what `CONNECTED` switches on, and the framer's two inputs. -/
def framerRegisters (s : State) : (TxState × List Byte × BitVec 17 × BitVec 17) ×
    (RxState × List Byte × BitVec 17 × List Byte × Bool × Nat) × Bool × Bool × Orientation × BitVec 16 × Bool :=
  (sendPath s, receivePath s, s.chanEn, s.connected, s.orientation, s.rxTotal, s.poolAvail)

theorem framerRegisters_eq_iff {s t : State} : framerRegisters t = framerRegisters s ↔
    sendPath t = sendPath s ∧ receivePath t = receivePath s ∧ t.chanEn = s.chanEn ∧ t.connected = s.connected ∧
      t.orientation = s.orientation ∧ t.rxTotal = s.rxTotal ∧ t.poolAvail = s.poolAvail := by
  simp [framerRegisters]

/-- The output goes to the sensor or to the timer, rule R10. -/
def isSearchOutput : Output → Bool
  | .tmrArm _ => true
  | .tmrCancel => true
  | .probe => true
  | .negStart => true
  | _ => false

theorem isSearchOutput_excludes {o : Output} (h : isSearchOutput o = true) :
    isCbState o = false ∧ isChWrite o = false ∧ isCbPacket o = false := by
  cases o with
  | tmrArm | tmrCancel | probe | negStart => exact ⟨rfl, rfl, rfl⟩
  | _ => cases h

/-- From `s` to `t` the connector moves on one side of `CONNECTED`, and the framer does not take part. -/
structure ConnectorMove (s t : State) : Prop where
  link : t.connState = .connected ↔ s.connState = .connected
  framer : framerRegisters t = framerRegisters s
  outputs : ∃ os, t.out = s.out ++ os ∧ os.all isSearchOutput = true

namespace ConnectorMove

variable {s t : State} {os : List Output}

theorem silent (hc : t.connState = s.connState) (hf : framerRegisters t = framerRegisters s) (hout : t.out = s.out) :
    ConnectorMove s t :=
  ⟨by rw [hc], hf, [], by rw [hout, List.append_nil], rfl⟩

theorem unlinked (hs : s.connState ≠ .connected) (ht : t.connState ≠ .connected)
    (hf : framerRegisters t = framerRegisters s) (hout : t.out = s.out ++ os) (hos : os.all isSearchOutput = true) :
    ConnectorMove s t :=
  ⟨iff_of_false ht hs, hf, os, hout, hos⟩

end ConnectorMove

/-- `GoIdle` cancels a timer that runs, rule R194. -/
theorem cancel_isSearchOutput (k : Tmr) :
    (if k = .off then [] else [Output.tmrCancel]).all isSearchOutput = true := by
  split <;> rfl

theorem contactMade_move (s : State) : ConnectorMove s (contactMade s) := by
  by_cases hc : s.connState = .idle
  · rw [contactMade_idle hc]; exact .unlinked (by simp [hc]) nofun rfl rfl rfl
  · rw [contactMade_recorded hc]; exact .silent rfl rfl rfl

theorem contactLost_move {s : State} (hlink : s.connState ≠ .connected) : ConnectorMove s (contactLost s) := by
  cases hc : s.connState with
  | idle => rw [contactLost_idle hc]; exact .silent rfl rfl rfl
  | detecting | negotiating =>
    rw [contactLost_searching (by simp [hc])]; exact .unlinked hlink nofun rfl rfl (cancel_isSearchOutput _)
  | connected => exact absurd hc hlink
  | disconnecting =>
    rw [contactLost_disconnecting hc]; exact .unlinked hlink nofun rfl rfl (cancel_isSearchOutput _)

theorem partnerPresent_move (s : State) : ConnectorMove s (partnerPresent s) := by
  by_cases hc : s.connState = .detecting
  · rw [partnerPresent_detecting hc]; exact .unlinked (by simp [hc]) nofun rfl rfl rfl
  · rw [partnerPresent_ignored hc]; exact .silent rfl rfl rfl

theorem detectTimeout_move (s : State) : ConnectorMove s (detectTimeout s) := by
  by_cases hdue : s.connState = .detecting ∧ s.tmr = .det
  · obtain ⟨hc, ht⟩ := hdue
    have hlink : s.connState ≠ .connected := by simp [hc]
    cases hmax : s.cfg.detectRetryMax with
    | none => rw [detectTimeout_unlimited hc ht hmax]; exact .unlinked hlink hlink rfl rfl rfl
    | some n =>
      rcases Nat.lt_or_ge s.retryCnt n with hlt | hge
      · rw [detectTimeout_retry hc ht hmax hlt]; exact .unlinked hlink hlink rfl rfl rfl
      · rw [detectTimeout_giveUp hc ht hmax hge]
        exact .unlinked hlink nofun rfl (List.append_nil _).symm rfl
  · rw [detectTimeout_stale (not_and_or.mp hdue)]; exact .silent rfl rfl rfl

theorem negotiateTimeout_move (s : State) : ConnectorMove s (negotiateTimeout s) := by
  by_cases hdue : s.connState = .negotiating ∧ s.tmr = .neg
  · obtain ⟨hc, ht⟩ := hdue
    rw [negotiateTimeout_due hc ht]
    exact .unlinked (by simp [hc]) nofun rfl (List.append_nil _).symm rfl
  · rw [negotiateTimeout_stale (not_and_or.mp hdue)]; exact .silent rfl rfl rfl

theorem teardownDone_move (s : State) : ConnectorMove s (teardownDone s) := by
  by_cases hc : s.connState = .disconnecting
  · rw [teardownDone_disconnecting hc]; exact .unlinked (by simp [hc]) nofun rfl rfl (cancel_isSearchOutput _)
  · rw [teardownDone_ignored hc]; exact .silent rfl rfl rfl

/-! ### The moves that enter or leave `CONNECTED` -/

/-- `ORIENT` clears the reassembly, but not a send, rule R188. -/
theorem orientationFound_keeps (o : Orientation) (s : State) :
    (orientationFound o s).rxTotal = s.rxTotal ∧ (orientationFound o s).poolAvail = s.poolAvail ∧
      sendPath (orientationFound o s) = sendPath s := by
  by_cases hc : s.connState = .negotiating
  · rw [orientationFound_negotiating hc]; exact ⟨rfl, rfl, rfl⟩
  · rw [orientationFound_ignored hc]; exact ⟨rfl, rfl, rfl⟩

theorem disconnect_keeps (s : State) :
    (disconnect s).rxTotal = s.rxTotal ∧ (disconnect s).poolAvail = s.poolAvail := by
  by_cases hc : s.connState = .connected
  · rw [disconnect_connected hc]; exact ⟨sendCleared_rxTotal s, sendCleared_poolAvail s⟩
  · rw [disconnect_ignored hc]; exact ⟨rfl, rfl⟩

theorem contactLost_keeps (s : State) :
    (contactLost s).rxTotal = s.rxTotal ∧ (contactLost s).poolAvail = s.poolAvail := by
  by_cases hc : s.connState = .connected
  · rw [contactLost_linked hc]; exact ⟨sendCleared_rxTotal s, sendCleared_poolAvail s⟩
  · obtain ⟨-, -, -, -, -, htotal, hpool⟩ := framerRegisters_eq_iff.mp (contactLost_move hc).framer
    exact ⟨htotal, hpool⟩

/-- The connector's operations that are never more than a move of the connector. -/
theorem exec_connectorMove {i : Instr} {s t : State} (h : exec i s = .next t)
    (hi : i = .contact ∨ i = .present ∨ i = .tmodet ∨ i = .tmoneg ∨ i = .discdone) : ConnectorMove s t := by
  obtain rfl | rfl | rfl | rfl | rfl := hi <;> cases h
  · exact contactMade_move s
  · exact partnerPresent_move s
  · exact detectTimeout_move s
  · exact negotiateTimeout_move s
  · exact teardownDone_move s

/-- The sensor's, the timer's and the two teardown operations, rule R107. -/
theorem connectorOperation_cases {i : Instr}
    (hi : issuer i = .sensor ∨ issuer i = .timer ∨ i = .disc ∨ i = .discdone) :
    i = .nocontact ∨ i = .disc ∨ (∃ o, i = .orient o) ∨
      i = .contact ∨ i = .present ∨ i = .tmodet ∨ i = .tmoneg ∨ i = .discdone := by
  cases i <;> simp [issuer] at hi ⊢

/-- Settles O59: `NOCONTACT`, `DISC` and `ORIENT` on their own, and the others as moves of the connector. -/
theorem connectorOperationsKeepTheFramer : Obligations.ConnectorOperationsKeepTheFramer := by
  intro i s t h hi
  obtain rfl | rfl | ⟨o, rfl⟩ | hmove := connectorOperation_cases hi
  · cases h
    obtain ⟨htotal, hpool⟩ := contactLost_keeps s
    exact ⟨htotal, hpool, fun hne => absurd rfl hne, fun hne => absurd rfl hne⟩
  · cases h
    obtain ⟨htotal, hpool⟩ := disconnect_keeps s
    exact ⟨htotal, hpool, fun _ hne => absurd rfl hne, fun _ hne => absurd rfl hne⟩
  · cases h
    obtain ⟨htotal, hpool, hsend⟩ := orientationFound_keeps (orientationOperand o) s
    exact ⟨htotal, hpool, fun _ _ => sendPath_eq_iff.mp hsend, fun _ _ hne => absurd rfl (hne o)⟩
  · obtain ⟨hsend, hreceive, hchan, hconnected, hori, htotal, hpool⟩ :=
      framerRegisters_eq_iff.mp (exec_connectorMove h hmove).framer
    obtain ⟨hstate, hblob, hrem, hpkt, hbusy, hcount⟩ := receivePath_eq_iff.mp hreceive
    exact ⟨htotal, hpool, fun _ _ => sendPath_eq_iff.mp hsend,
      fun _ _ _ => ⟨hstate, hblob, hrem, hpkt, hbusy, hcount, hchan, hconnected, hori⟩⟩

/-! ### Detection takes no Block -/

/-- The Blocks held are a matter of the two paths alone (rule R39 item l). -/
theorem blocksHeld_of_framerRegisters {s t : State} (h : framerRegisters t = framerRegisters s) :
    blocksHeld t = blocksHeld s := by
  obtain ⟨hsend, hreceive, -⟩ := framerRegisters_eq_iff.mp h
  obtain ⟨htx, -⟩ := sendPath_eq_iff.mp hsend
  rw [blocksHeld, blocksHeld, htx, rxBusy_of_receivePath hreceive]

/-- A run keeps what each of its operations keeps. -/
theorem runAll_keeps {α : Type} (f : State → α) {l : List Instr}
    (hl : ∀ i ∈ l, ∀ u v, exec i u = .next v → f v = f u) {s t : State} (h : runAll l s = .next t) : f t = f s := by
  induction l generalizing s with
  | nil => cases h; rfl
  | cons i l ih =>
    obtain ⟨hi, hl⟩ := List.forall_mem_cons.mp hl
    obtain ⟨u, hu, -⟩ := exec_completes_keeping_hostSide i s
    rw [runAll_cons hu] at h
    exact (ih hl h).trans (hi s u hu)

/-- Settles O42: the timeouts within the retries poll once more each, the next one gives up, and all operations of the run
are moves of the connector. -/
theorem detectionGivesUpAfterItsRetries : Obligations.DetectionGivesUpAfterItsRetries := by
  intro n s hc hmax
  refine ⟨?_, fun k t h => runAll_keeps blocksHeld (fun i hi u v huv => ?_) h⟩
  · rw [List.replicate_succ', ← List.cons_append, runAll_append (runAll_polls hc hmax le_rfl),
      runAll_cons (exec_tmodet _), detectTimeout_polled_last hc hmax, runAll]
  · have hmove : i = .contact ∨ i = .tmodet := by
      rcases List.mem_cons.mp hi with hcontact | htimeout
      · exact .inl hcontact
      · exact .inr (List.eq_of_mem_replicate htimeout)
    exact blocksHeld_of_framerRegisters (exec_connectorMove huv (by tauto)).framer

end Sys2Proof.Machine
end

section
/-! The connector as a whole: its table (rule R202) and what R204 concludes from it about `CONNECTED` and `IDLE`. -/

namespace Sys2Proof.Machine

/-! ### Loss of contact -/

/-- Whatever the connector was doing, it stops and the level is recorded. -/
theorem contactLost_stops (s : State) : (contactLost s).connState = .idle ∧ (contactLost s).contact = false := by
  cases hc : s.connState with
  | idle => rw [contactLost_idle hc]; exact ⟨hc, rfl⟩
  | detecting | negotiating => rw [contactLost_searching (by simp [hc])]; exact ⟨rfl, rfl⟩
  | connected => rw [contactLost_linked hc]; exact ⟨rfl, rfl⟩
  | disconnecting => rw [contactLost_disconnecting hc]; exact ⟨rfl, rfl⟩

/-- A send needs the channel (item c). -/
theorem Inv.txState_idle {s : State} (h : Inv s) (hoff : s.chanEn = false) : s.txState = .idle := by
  cases hs : s.txState with
  | idle => rfl
  | sending => cases hoff.symm.trans (h.sending_chanEn hs)

theorem blocksHeld_eq_zero {s : State} (htx : s.txState = .idle) (hbusy : s.rxBusy = false) : blocksHeld s = 0 := by
  simp [blocksHeld, htx, hbusy]

/-- Settles O43: in `IDLE` the invariants leave nothing else open, and the step keeps them. -/
theorem contactLossReachesIdle : Obligations.ContactLossReachesIdle := by
  intro s hs
  have h := inv_contactLost hs
  obtain ⟨hc, hlevel⟩ := contactLost_stops s
  have hlink : (contactLost s).connState ≠ .connected := by simp [hc]
  have hsearch : (contactLost s).connState ≠ .detecting := by simp [hc]
  have hneg : (contactLost s).connState ≠ .negotiating := by simp [hc]
  have hoff := h.chanEn_off hlink
  have htx := h.txState_idle hoff
  obtain ⟨htxPkt, htxIdx, htxNblobs⟩ := h.tx_idle htx
  obtain ⟨hrx, hbusy, hblob, hpkt, hcount⟩ := h.channel_off hoff
  obtain ⟨-, hrem⟩ := h.rx_header hrx
  have hquiet : quiescent (contactLost s) = true := by simp [quiescent, htx, hbusy, hc]
  exact ⟨contactLost s, exec_nocontact s, hc, hlevel, h.connected_off hlink, hoff, h.orientation_none hlink,
    h.tmr_off hsearch hneg, h.retryCnt_zero hsearch, htx, htxPkt, htxIdx, htxNblobs, hrx, hbusy, hblob, hrem, hpkt,
    hcount, blocksHeld_eq_zero htx hbusy, hquiet⟩

/-! ### What an operation can do to the link -/

theorem emitted_eq {s t : State} {os : List Output} (h : t.out = s.out ++ os) : emitted s t = os := by
  rw [emitted, h, List.drop_left]

/-- The step from `s` to `t` stays inside or outside `CONNECTED` and does not call `CB_STATE`. -/
structure KeepsLink (s t : State) : Prop where
  link : t.connState = .connected ↔ s.connState = .connected
  outputs : ∃ os, t.out = s.out ++ os ∧ os.filter isCbState = []

/-- The step from `s` to `t` enters `CONNECTED`. -/
structure EntersConnected (s t : State) : Prop where
  before : s.connState ≠ .connected
  after : t.connState = .connected
  outputs : ∃ os, t.out = s.out ++ os ∧ os.filter isCbState = [.cbState t.orientation true]

/-- The step from `s` to `t` leaves `CONNECTED`: the effect of `LeaveConnected`, rule R196. -/
structure LeavesConnected (s t : State) : Prop where
  before : s.connState = .connected
  after : t.connState ≠ .connected
  send : t.txState = .idle
  block : t.rxBusy = false
  channel : t.chanEn = false
  unoriented : t.orientation = .oriNone
  outputs : ∃ os, t.out = s.out ++ os ∧ os.filter isCbState = [.cbState .oriNone false]

theorem KeepsLink.of_same {s t : State} {os : List Output} (hc : t.connState = s.connState) (hout : t.out = s.out ++ os)
    (hos : os.filter isCbState = []) : KeepsLink s t :=
  ⟨by rw [hc], os, hout, hos⟩

theorem KeepsLink.refl (s : State) : KeepsLink s s := .of_same rfl (List.append_nil _).symm rfl

theorem ConnectorMove.keepsLink {s t : State} (h : ConnectorMove s t) : KeepsLink s t := by
  obtain ⟨os, hout, hos⟩ := h.outputs
  refine ⟨h.link, os, hout, List.filter_eq_nil_iff.mpr fun o ho => ?_⟩
  obtain ⟨hstate, -⟩ := isSearchOutput_excludes (List.all_eq_true.mp hos o ho)
  simp [hstate]

theorem filter_isCbState_leaveOutputs (s : State) :
    (leaveOutputs s).filter isCbState = [.cbState .oriNone false] := by
  unfold leaveOutputs
  split <;> split <;> rfl

theorem filter_isCbState_boundaryOutputs (s : State) : (boundaryOutputs s).filter isCbState = [] := by
  unfold boundaryOutputs
  split <;> split <;> rfl

theorem leavesConnected_afterLeaving {s u : State} {os : List Output} (hc : s.connState = .connected)
    (hout : u.out = s.out ++ os) (hos : os.filter isCbState = []) :
    LeavesConnected s (afterLeaving .disconnecting u) :=
  ⟨hc, nofun, sendCleared_txState u, rfl, rfl, rfl, os ++ leaveOutputs u,
    by rw [← List.append_assoc, ← hout]; rfl,
    by rw [List.filter_append, hos, filter_isCbState_leaveOutputs, List.nil_append]⟩

theorem contactLost_leavesConnected {s : State} (hc : s.connState = .connected) : LeavesConnected s (contactLost s) := by
  rw [contactLost_linked hc]
  refine ⟨hc, nofun, sendCleared_txState s, rfl, rfl, rfl, leaveOutputs s ++ _, List.append_assoc .., ?_⟩
  rw [List.filter_append, filter_isCbState_leaveOutputs]
  split <;> rfl

theorem orientationFound_entersConnected (o : Orientation) {s : State} (hc : s.connState = .negotiating) :
    EntersConnected s (orientationFound o s) := by
  rw [orientationFound_negotiating hc]
  exact ⟨by simp [hc], rfl, _, rfl, rfl⟩

theorem sendPacket_keepsLink (len : Nat) (s : State) : KeepsLink s (sendPacket len s) := by
  rcases sendPacket_cases len s with ⟨k, h⟩ | ⟨-, h⟩ <;> rw [h]
  · exact .of_same rfl (rejectSend_out k s) rfl
  · exact .of_same rfl (emit_out _ _) rfl

theorem setExpectedLength_keepsLink (total : Nat) (s : State) : KeepsLink s (setExpectedLength total s) := by
  rcases Nat.lt_or_ge s.cfg.maxPacket total with hlong | hfits
  · rw [setExpectedLength_tooLong hlong]; exact .of_same rfl (emit_out _ _) rfl
  · rw [setExpectedLength_fits hfits]; exact .of_same rfl (List.append_nil _).symm rfl

theorem writeDone_keepsLink (s : State) : KeepsLink s (writeDone s) := by
  cases hs : s.txState with
  | idle => rw [writeDone_ignored hs]; exact .refl s
  | sending =>
    by_cases hlast : s.txIdx.toNat + 1 = s.txNblobs.toNat
    · rw [writeDone_last hs hlast]; exact .of_same rfl (emit_out _ _) rfl
    · rw [writeDone_more hs hlast]; exact .of_same rfl (emit_out _ _) rfl

theorem endTransaction_keepsLink (s : State) : KeepsLink s (endTransaction s) := by
  obtain ⟨⟨hc, -⟩, -⟩ := connectorRegisters_eq_iff.mp (endTransaction_keeps_connector s).1
  have hout : (endTransaction s).out = s.out ++ boundaryOutputs s := by rw [endTransaction_eq]
  exact .of_same hc hout (filter_isCbState_boundaryOutputs s)

/-- The byte that makes the CRC fault persistent, rule R149. -/
theorem receiveByte_persistent {b : Byte} {s : State} (h : persistentCrcFault b s) :
    receiveByte b s = afterLeaving .disconnecting
      { afterReceiveFault .crcMismatch s with
        crcFaultCnt := s.crcFaultCnt + 1, faultFlags := s.faultFlags ||| flagMask .crc ||| flagMask .crcPersist } := by
  rcases receiveByte_cases b s with ⟨-, hdrop⟩ | ⟨-, hheader, -⟩ | ⟨-, -, ⟨hno, -⟩ | ⟨-, ht⟩⟩
  · obtain ⟨hon, hpayload, -⟩ := h
    simp [hon, hpayload] at hdrop
  · obtain ⟨-, hpayload, -⟩ := h
    cases hheader.symm.trans hpayload
  · exact absurd h hno
  · exact ht

/-- A byte ends the connection exactly when it makes the CRC fault persistent. -/
theorem receiveByte_link (b : Byte) {s : State} (hon : s.chanEn = true → s.connState = .connected) :
    KeepsLink s (receiveByte b s) ∨ LeavesConnected s (receiveByte b s) := by
  have hfault (k : ErrorKind) (n : Nat) : KeepsLink s { afterReceiveFault k s with crcFaultCnt := n } :=
    .of_same (os := [.cbFault k]) rfl rfl rfl
  rcases receiveByte_cases b s with
    ⟨h, -⟩ | ⟨-, -, ⟨h, -⟩ | h | h | h⟩ | ⟨hc, -, ⟨-, h | h | ⟨pkt, h | h⟩⟩ | ⟨-, h⟩⟩ <;> rw [h]
  case inr.inl.inl | inr.inl.inr.inl | inr.inr.inl.inr.inl => exact .inl (hfault _ _)
  case inr.inr.inl.inr.inr.inr =>
    exact .inl (.of_same (os := [.cbPacket s.cfg.connectorId pkt]) rfl rfl rfl)
  case inr.inr.inr => exact .inr (leavesConnected_afterLeaving (os := [.cbFault .crcMismatch]) (hon hc) rfl rfl)
  all_goals exact .inl (.of_same rfl (List.append_nil _).symm rfl)

/-- Every operation but `RESET` keeps the link, enters `CONNECTED` or leaves it; the channel must not be on outside
`CONNECTED`, where a persistent CRC fault would call `CB_STATE`. -/
theorem exec_link {i : Instr} {s t : State} (h : exec i s = .next t) (hreset : i ≠ .reset)
    (hon : s.chanEn = true → s.connState = .connected) :
    KeepsLink s t ∨ EntersConnected s t ∨ LeavesConnected s t := by
  cases i with
  | send len => cases h; exact .inl (sendPacket_keepsLink len s)
  | rxlen total => cases h; exact .inl (setExpectedLength_keepsLink total s)
  | wrdone => cases h; exact .inl (writeDone_keepsLink s)
  | txnend | chabort => cases h; exact .inl (endTransaction_keepsLink s)
  | poolav a => cases h; exact .inl (.of_same rfl (List.append_nil _).symm rfl)
  | contact | present | tmodet | tmoneg | discdone => exact .inl (exec_connectorMove h (by simp)).keepsLink
  | rxb b => cases h; exact (receiveByte_link b hon).imp_right .inr
  | disc =>
    cases h
    by_cases hc : s.connState = .connected
    · rw [disconnect_connected hc]
      exact .inr (.inr (leavesConnected_afterLeaving hc (List.append_nil _).symm rfl))
    · rw [disconnect_ignored hc]; exact .inl (.refl s)
  | nocontact =>
    cases h
    by_cases hc : s.connState = .connected
    · exact .inr (.inr (contactLost_leavesConnected hc))
    · exact .inl (contactLost_move hc).keepsLink
  | orient o =>
    cases h
    by_cases hc : s.connState = .negotiating
    · exact .inr (.inl (orientationFound_entersConnected _ hc))
    · rw [orientationFound_ignored hc]; exact .inl (.refl s)
  | reset => exact absurd rfl hreset

/-- Settles O44: the callback of each of the three ways an operation treats the link. -/
theorem stateCallbackExactlyOnEnteringAndLeaving : Obligations.StateCallbackExactlyOnEnteringAndLeaving := by
  intro i s t hinv h hreset
  rcases exec_link h hreset hinv.chanEn_iff.mp with hkeep | henter | hleave
  · obtain ⟨os, hout, hos⟩ := hkeep.outputs
    rw [emitted_eq hout, hos, if_neg fun hin => hin.1 (hkeep.link.mp hin.2),
      if_neg fun hleft => hleft.2 (hkeep.link.mpr hleft.1)]
  · obtain ⟨os, hout, hos⟩ := henter.outputs
    rw [emitted_eq hout, hos, if_pos ⟨henter.before, henter.after⟩]
  · obtain ⟨os, hout, hos⟩ := hleave.outputs
    rw [emitted_eq hout, hos, if_neg fun hin => hin.1 hleave.before, if_pos ⟨hleave.before, hleave.after⟩]

/-- Settles O46: `RESET` empties everything, and any other operation that ends outside `CONNECTED` has left it. -/
theorem leavingConnectedFreesBothPaths : Obligations.LeavingConnectedFreesBothPaths := by
  intro i s t hs h ht
  by_cases hreset : i = .reset
  · subst hreset
    cases h
    exact ⟨rfl, rfl, rfl, rfl, rfl⟩
  rcases exec_link h hreset (fun _ => hs) with hkeep | henter | hleave
  · exact absurd (hkeep.link.mpr hs) ht
  · exact absurd hs henter.before
  · exact ⟨hleave.send, hleave.block, blocksHeld_eq_zero hleave.send hleave.block, hleave.channel, hleave.unoriented⟩

/-! ### Outside `CONNECTED` -/

/-- The step from `s` to `t` neither hands bytes to the channel nor delivers a packet. -/
def CarriesNoData (s t : State) : Prop :=
  ∃ os, t.out = s.out ++ os ∧ ∀ o ∈ os, isChWrite o = false ∧ isCbPacket o = false

theorem carriesNoData_of_same_out {s t : State} (h : t.out = s.out) : CarriesNoData s t :=
  ⟨[], by rw [h, List.append_nil], nofun⟩

theorem carriesNoData_of_one {s t : State} {o : Output} (h : t.out = s.out ++ [o])
    (ho : isChWrite o = false ∧ isCbPacket o = false) : CarriesNoData s t :=
  ⟨[o], h, fun _ hx => List.mem_singleton.mp hx ▸ ho⟩

theorem ConnectorMove.carriesNoData {s t : State} (h : ConnectorMove s t) : CarriesNoData s t := by
  obtain ⟨os, hout, hos⟩ := h.outputs
  exact ⟨os, hout, fun o ho => (isSearchOutput_excludes (List.all_eq_true.mp hos o ho)).2⟩

/-- With the channel off `SEND` is rejected, rule R121. -/
theorem sendPacket_rejected (len : Nat) {s : State} (hoff : s.chanEn = false) :
    ∃ k, sendPacket len s = rejectSend k s := by
  rcases Nat.lt_or_ge s.cfg.maxPacket len with hlong | hfits
  · exact ⟨_, sendPacket_tooLong hlong⟩
  · exact ⟨_, sendPacket_channelOff hfits hoff⟩

/-- Outside `CONNECTED` the channel is off and both paths are at rest (rule R39 items a, c and d), so `SEND` is rejected, and
`WRDONE` and `RXB` are ignored. -/
theorem exec_carriesNoData {i : Instr} {s t : State} (hinv : Inv s) (hlink : s.connState ≠ .connected)
    (h : exec i s = .next t) : CarriesNoData s t := by
  have hoff := hinv.chanEn_off hlink
  have hidle := hinv.txState_idle hoff
  obtain ⟨-, hfree, -⟩ := hinv.channel_off hoff
  cases i with
  | send len =>
    cases h
    obtain ⟨k, hreject⟩ := sendPacket_rejected len hoff
    rw [hreject]
    exact carriesNoData_of_one (rejectSend_out k s) ⟨rfl, rfl⟩
  | rxlen total =>
    cases h
    rcases Nat.lt_or_ge s.cfg.maxPacket total with hlong | hfits
    · rw [setExpectedLength_tooLong hlong]; exact carriesNoData_of_one (emit_out _ _) ⟨rfl, rfl⟩
    · rw [setExpectedLength_fits hfits]; exact carriesNoData_of_same_out rfl
  | wrdone => cases h; rw [writeDone_ignored hidle]; exact carriesNoData_of_same_out rfl
  | rxb b => cases h; rw [receiveByte_dropped b (.inl hoff)]; exact carriesNoData_of_same_out rfl
  | txnend | chabort => cases h; rw [endTransaction_quiet hidle hfree]; exact carriesNoData_of_same_out rfl
  | disc => cases h; rw [disconnect_ignored hlink]; exact carriesNoData_of_same_out rfl
  | nocontact => cases h; exact (contactLost_move hlink).carriesNoData
  | contact | present | tmodet | tmoneg | discdone => exact (exec_connectorMove h (by simp)).carriesNoData
  | orient o =>
    cases h
    by_cases hc : s.connState = .negotiating
    · rw [orientationFound_negotiating hc]; exact ⟨_, rfl, by simp [isChWrite, isCbPacket]⟩
    · rw [orientationFound_ignored hc]; exact carriesNoData_of_same_out rfl
  | poolav a | reset => cases h; exact carriesNoData_of_same_out rfl

/-- Settles O45: no operation carries data there. -/
theorem nothingWrittenOrDeliveredUnlessConnected : Obligations.NothingWrittenOrDeliveredUnlessConnected := by
  intro i s t hinv hlink h
  obtain ⟨os, hout, hos⟩ := exec_carriesNoData hinv hlink h
  rwa [emitted_eq hout]

/-! ### The table of rule R202 -/

/-- `TMODET` in `DETECTING`: one more poll, or the end of the search at the last retry; the invariants put the retry counter
within its limit (item i). -/
theorem detectTimeout_outcome {s : State} (hinv : Inv s) (hc : s.connState = .detecting) :
    ((detectTimeout s).connState = .detecting ∧ (detectTimeout s).tmr = .det ∧
        emitted s (detectTimeout s) = [.probe, .tmrArm .det]) ∨
      ((detectTimeout s).connState = .idle ∧ flagSet .detTmo (detectTimeout s) = true ∧
        s.cfg.detectRetryMax = some s.retryCnt) := by
  have ht : s.tmr = .det := hinv.tmr_det.mpr hc
  cases hmax : s.cfg.detectRetryMax with
  | none => rw [detectTimeout_unlimited hc ht hmax]; exact .inl ⟨hc, ht, List.drop_left⟩
  | some n =>
    rcases Nat.lt_or_ge s.retryCnt n with hlt | hge
    · rw [detectTimeout_retry hc ht hmax hlt]; exact .inl ⟨hc, ht, List.drop_left⟩
    · rw [detectTimeout_giveUp hc ht hmax hge]
      have hlast : s.retryCnt = n := Nat.le_antisymm (hinv.retry_le n hmax) hge
      exact .inr ⟨rfl, by simp [flagSet, flagBit], by rw [hlast]⟩

/-- `RXB` in `CONNECTED`: only the persistent CRC fault ends the connection, rule R149. -/
theorem receiveByte_outcome (b : Byte) {s : State} (hc : s.connState = .connected) :
    ((receiveByte b s).connState = .connected ∧ ¬persistentCrcFault b s) ∨
      ((receiveByte b s).connState = .disconnecting ∧ flagSet .crcPersist (receiveByte b s) = true ∧
        persistentCrcFault b s) := by
  by_cases hp : persistentCrcFault b s
  · rw [receiveByte_persistent hp]
    exact .inr ⟨rfl, by simp [flagSet, afterLeaving, abortFlags_eq_or, flagMask, flagBit], hp⟩
  · have hkept : (receiveByte b s).connState = s.connState := congrArg Prod.fst (connection_receiveByte hp)
    exact .inl ⟨hkept.trans hc, hp⟩

/-- The operations without a row of their own keep the connector state. -/
theorem exec_keeps_connState {i : Instr} {s t : State} (h : exec i s = .next t)
    (hi : (∃ n, i = .send n) ∨ (∃ n, i = .rxlen n) ∨ i = .wrdone ∨ i = .txnend ∨ i = .chabort) :
    t.connState = s.connState := by
  obtain ⟨hregs, -⟩ := exec_keeps_connector h hi
  obtain ⟨⟨hconn, -⟩, -⟩ := connectorRegisters_eq_iff.mp hregs
  exact hconn

/-- Settles O40: per operation, its own row by its equation, and the states in which it is ignored. -/
theorem connectorTable : Obligations.ConnectorTable := by
  intro i s t hinv h
  cases i with
  | send | rxlen | wrdone | txnend | chabort => exact exec_keeps_connState h (by simp)
  | poolav a => cases h; rfl
  | reset => cases h; rfl
  | nocontact => cases h; exact (contactLost_stops s).1
  | contact =>
    cases h
    cases hc : s.connState with
    | idle => rw [contactMade_idle hc]
    | _ => rw [contactMade_recorded (by simp [hc])]; exact hc
  | present =>
    cases h
    cases hc : s.connState with
    | detecting => rw [partnerPresent_detecting hc]
    | _ => rw [partnerPresent_ignored (by simp [hc])]; exact hc
  | orient o =>
    cases h
    cases hc : s.connState with
    | negotiating => rw [orientationFound_negotiating hc]
    | _ => rw [orientationFound_ignored (by simp [hc])]; exact hc
  | tmodet =>
    cases h
    cases hc : s.connState with
    | detecting => exact detectTimeout_outcome hinv hc
    | _ => rw [detectTimeout_stale (.inl (by simp [hc]))]; exact hc
  | tmoneg =>
    cases h
    cases hc : s.connState with
    | negotiating =>
      rw [negotiateTimeout_due hc (hinv.tmr_neg.mpr hc)]
      exact ⟨rfl, by simp [flagSet, flagBit]⟩
    | _ => rw [negotiateTimeout_stale (.inl (by simp [hc]))]; exact hc
  | disc =>
    cases h
    cases hc : s.connState with
    | connected => rw [disconnect_connected hc]; rfl
    | _ => rw [disconnect_ignored (by simp [hc])]; exact hc
  | discdone =>
    cases h
    cases hc : s.connState with
    | disconnecting => rw [teardownDone_disconnecting hc]
    | _ => rw [teardownDone_ignored (by simp [hc])]; exact hc
  | rxb b =>
    cases h
    cases hc : s.connState with
    | connected => exact receiveByte_outcome b hc
    | _ => rw [receiveByte_dropped b (.inl (hinv.chanEn_off (by simp [hc])))]; exact hc

end Sys2Proof.Machine
end

section
/-! The environment and system operations (rules R220 and R222): the word of `POOLAV`, and `RESET` as a whole next state. -/

namespace Sys2Proof.Machine

/-! ### `POOLAV` -/

/-- The word of `POOLAV a` (rules R105 and R106). -/
theorem encode_poolav (a : Bool) : encode (.poolav a) = 0x30000000#32 + (BitVec.ofBool a).setWidth 32 := by
  cases a with
  | false => decide
  | true => decide

/-- Settles O47: the word is the encoding of `POOLAV a`, and the operation writes the one register. -/
theorem poolavResult : Obligations.PoolavResult := by
  refine ⟨fun a => ?_, exec_poolav⟩
  rw [← encode_poolav, decodeOfEncodeIsTheOperation _ rfl]

/-! ### `RESET` -/

/-- Rules R20 and R44: the registers and buffers that a reset writes; the fields not listed keep their values. -/
theorem resetBlock_eq (s : State) :
    resetBlock s =
      { s with connState := .idle, contact := false, connected := false, chanEn := false, orientation := .oriNone,
               faultFlags := 0x00#8, tmr := .off, retryCnt := 0, crcFaultCnt := 0, rxState := .expectHeader,
               rxBlob := [], rxRemaining := 0#17, rxPkt := [], rxBusy := false, poolAvail := false, rxTotal := 0#16,
               txState := .idle, txPkt := [], txIdx := 0#17, txNblobs := 0#17 } := rfl

/-- The state after power-up is a fixed point of the reset, whatever the parameters (rules R44 and R270). -/
theorem resetBlock_resetWith (p : Params) : resetBlock (State.resetWith p) = State.resetWith p := rfl

/-- Settles O48: the word is the encoding of `RESET`, which resets the block, and power-up is a fixed point of that. -/
theorem resetResult : Obligations.ResetResult := by
  refine ⟨decodeOfEncodeIsTheOperation .reset rfl, fun s => ?_, ?_⟩
  · rw [exec_reset, resetBlock_eq]
  · rw [exec_reset, State.reset, resetBlock_resetWith]

end Sys2Proof.Machine
end

section
/-! Closed gates (rule R240), and the step that finds no event pending (rules R256 and R200). -/

namespace Sys2Proof.Machine

/-! ### Closed gates -/

/-- The gate of `SEND` is the conjunction of what rule R121 tests: if it is closed, one of the three tests rejects. -/
theorem sendPacket_gateClosed {len : Nat} {s : State} (h : gateOpen (.send len) s = false) :
    ∃ k, sendPacket len s = rejectSend k s := by
  rcases Nat.lt_or_ge s.cfg.maxPacket len with hlong | hfits
  · exact ⟨_, sendPacket_tooLong hlong⟩
  · cases hon : s.chanEn with
    | false => exact ⟨_, sendPacket_channelOff hfits hon⟩
    | true =>
      have hslot : s.txState = .sending ∨ s.poolAvail = false := by
        cases htx : s.txState with
        | sending => exact .inl rfl
        | idle => exact .inr (by simpa [gateOpen, hon, htx, hfits] using h)
      exact ⟨_, sendPacket_noSlot hfits hon hslot⟩

/-- The gate of `RXB` is closed in the two cases in which rule R141 drops the byte. -/
theorem gateOpen_rxb_eq_false {b : Byte} {s : State} :
    gateOpen (.rxb b) s = false ↔ s.chanEn = false ∨ s.rxState = .fault := by
  simp [gateOpen, ← Bool.not_eq_true, imp_iff_not_or]

/-- The gate of `WRDONE` is closed exactly on an idle send path, where rule R123 ignores it. -/
theorem gateOpen_wrdone_eq_false {s : State} : gateOpen .wrdone s = false ↔ s.txState = .idle := by
  cases htx : s.txState <;> simp [gateOpen, htx]

/-- Settles O54: a closed gate is the condition under which the operation's own rule ignores or rejects it; four operations
have no gate. -/
theorem closedGateIgnoresOrRejects : Obligations.ClosedGateIgnoresOrRejects := by
  intro i s _ hgate
  cases i with
  | send len =>
    obtain ⟨k, hreject⟩ := sendPacket_gateClosed hgate
    exact ⟨k, congrArg _ hreject⟩
  | rxlen total => exact congrArg _ (setExpectedLength_tooLong (Nat.not_le.mp (of_decide_eq_false hgate)))
  | disc => exact congrArg _ (disconnect_ignored (of_decide_eq_false hgate))
  | rxb b => exact congrArg _ (receiveByte_dropped b (gateOpen_rxb_eq_false.mp hgate))
  | wrdone => exact congrArg _ (writeDone_ignored (gateOpen_wrdone_eq_false.mp hgate))
  | contact => exact congrArg _ (contactMade_recorded (of_decide_eq_false hgate))
  | nocontact => exact congrArg _ (contactLost_idle (not_not.mp (of_decide_eq_false hgate)))
  | present => exact congrArg _ (partnerPresent_ignored (of_decide_eq_false hgate))
  | orient o => exact congrArg _ (orientationFound_ignored (of_decide_eq_false hgate))
  | tmodet => exact congrArg _ (detectTimeout_stale (.inr (of_decide_eq_false hgate)))
  | tmoneg => exact congrArg _ (negotiateTimeout_stale (.inr (of_decide_eq_false hgate)))
  | discdone => exact congrArg _ (teardownDone_ignored (of_decide_eq_false hgate))
  | txnend | chabort | poolav a | reset => cases hgate

/-! ### No event pending -/

theorem step_of_nothing_pending {s : State} (hp : s.pending = []) : step s = .next (idleStep s) := by
  simp only [step, takeEvent, hp]

theorem idleStep_idle {s : State} (hc : s.connState ≠ .disconnecting) : idleStep s = s := if_neg hc

/-- Rule R200: in `DISCONNECTING` the free value (log 2) decides whether the block also raises its own `DISCDONE`. -/
theorem idleStep_disconnecting {s : State} (hc : s.connState = .disconnecting) :
    idleStep s =
      if Config.discDoneNow s.idleSteps then teardownDone { s with idleSteps := s.idleSteps + 1 }
      else { s with idleSteps := s.idleSteps + 1 } := if_pos hc

/-- Settles O8: with nothing pending the step is the block's own, and the free value picks its outcome. -/
theorem stepWithNothingPending : Obligations.StepWithNothingPending := by
  intro s hp
  rw [step_of_nothing_pending hp]
  refine ⟨fun hc => congrArg _ (idleStep_idle hc), fun hc => ?_⟩
  rw [exec_discdone, idleStep_disconnecting hc]
  by_cases hnow : Config.discDoneNow s.idleSteps
  · exact .inr (congrArg _ (if_pos hnow))
  · exact .inl (congrArg _ (if_neg hnow))

end Sys2Proof.Machine
end

section
/-! Every operation in every state (rule R280): it completes, leaves the host's side alone and appends its outputs; and what
still arrives after a reset finds nothing to act on (rule R271). -/

namespace Sys2Proof.Machine

/-- Settles O9: every operation completes keeping the host's side, and its outputs are the earlier ones followed by what it
emits. -/
theorem everyOperationCompletesAndKeepsTheHostSide : Obligations.EveryOperationCompletesAndKeepsTheHostSide := by
  intro i s
  obtain ⟨t, hexec, hkeep⟩ := exec_completes_keeping_hostSide i s
  obtain ⟨hcfg, htxbuf, hpending⟩ := hostSide_eq_iff.mp hkeep
  exact ⟨t, hexec, hcfg, fun a => congrArg (Memory.read · a) htxbuf, hpending, emitted s t, exec_out hexec⟩

/-- A transaction boundary after a reset: nothing is in flight, and what the quiet case resets is reset already. -/
theorem endTransaction_resetBlock (s : State) : endTransaction (resetBlock s) = resetBlock s := by
  rw [endTransaction_quiet (resetBlock_txState s) (resetBlock_rxBusy s), resetBlock_eq]

/-- Settles O49: a reset leaves no send, no detection or negotiation, no transaction and no enabled channel, so each late
event is in the case that its own rule ignores. -/
theorem lateEventsAfterResetAreHarmless : Obligations.LateEventsAfterResetAreHarmless := by
  intro i s t hreset hlate
  obtain rfl : resetBlock s = t := Host.Outcome.next.inj hreset
  rcases hlate with rfl | rfl | rfl | rfl | rfl | ⟨b, rfl⟩
  · exact congrArg _ (writeDone_ignored (resetBlock_txState s))
  · exact congrArg _ (detectTimeout_stale (.inl (by simp)))
  · exact congrArg _ (negotiateTimeout_stale (.inl (by simp)))
  · exact congrArg _ (endTransaction_resetBlock s)
  · exact congrArg _ (endTransaction_resetBlock s)
  · exact congrArg _ (receiveByte_dropped b (.inl (resetBlock_chanEn s)))

end Sys2Proof.Machine
end
